-- ==== Sys2Proof/Word.lean ====
section
/-! DEFINITION. Word.lean: the byte type. The block has no machine word; what is a bit string in the spec (a token
cell, a lookup key, a packed command, a frame word) is a `BitVec` of its own width, and a duration is an integer. -/

namespace Sys2Proof

/-- One byte: a Token Buffer cell (R57) or a character of the text line (R190). -/
abbrev Byte := BitVec 8

end Sys2Proof
end

