-- ==== Sys2Proof/Config.lean ====
section
/-! DEFINITION. Config.lean: the fixed constants of this hardware (R6, R7, R8, R10 of 00_scope.md) and the record of its
open parameters (R9 to R12; D2 to D5). All durations are in microseconds. -/

namespace Sys2Proof.Config

/-- Classifier thresholds (R6). -/
def T1 : Nat := 512
def T2 : Nat := 2048
def T3 : Nat := 4096
def T4 : Nat := 8192
def T5 : Nat := 16384

/-- Legacy12 transmit durations (R7). -/
def l12Short : Nat := 350
def l12Long : Nat := 1050
def l12SyncLow : Nat := 10850

/-- Modern32 transmit durations (R7). -/
def m32High : Nat := 310
def m32ShortLow : Nat := 215
def m32LongLow : Nat := 1236
def m32SyncLow1 : Nat := 10150
def m32SyncLow2 : Nat := 2643

/-- Data bits of a Format A (Modern32) and of a Format B (Legacy12) frame (R8). -/
def bitsA : Nat := 32
def bitsB : Nat := 12

/-- The repeat count a host uses when it has no reason to choose another (R10): a host convention, read by no step. -/
def repeatsDefault : Nat := 5

end Sys2Proof.Config

namespace Sys2Proof

/-- The open parameters of the spec: the Token Buffer's capacity (R9), the overflow counter's width (R12) and the port
widths of the duration (R11) and of the repeat count (R10). A value of the machine, fixed while it runs (log 3). -/
structure Params where
  tokenCap : Nat
  ovfW : Nat
  durW : Nat
  repeatW : Nat
  deriving DecidableEq, Repr

/-- The spec's constraint on the capacity, "integer >= 1" (92_eei_decisions.md), and a duration port of at least one bit. -/
def Params.wf (p : Params) : Bool := decide (1 ≤ p.tokenCap) && decide (1 ≤ p.durW)

/-- The values the spec suggests: capacity 64 (R9), widths 16, 16 and 8 (R12, R11, R10). DESIGN CHOICE (log 3). -/
def Params.suggested : Params := { tokenCap := 64, ovfW := 16, durW := 16, repeatW := 8 }

/-- The value at which the overflow counter saturates (R12). -/
def Params.ovfMax (p : Params) : Nat := 2 ^ p.ovfW - 1

end Sys2Proof
end

