-- ==== Sys2Proof/Syntax.lean ====
section
/-! DEFINITION. Syntax.lean: the data types of the spec (levels, receiver states, categories, tokens, commands,
segments), the calls that agents make on the block, and `Instr`, one constructor per row of spec/opcode_table.json. -/

namespace Sys2Proof

/-- A line level (R15). As the polarity of a pulse, `high` is a positive and `low` a negative duration. -/
inductive Level where
  | high
  | low
  deriving DecidableEq, Repr

/-- The opposite level. -/
def Level.flip : Level → Level
  | .high => .low
  | .low => .high

/-- ReceiverState (R20), in the order that gives the codes 0 to 11. -/
inductive RxState where
  | unknown
  | syncA1 | syncA2 | syncA3
  | bitA0 | bitA1 | bitA2 | bitA3
  | bitB0 | bitB1 | bitB2 | bitB3
  deriving DecidableEq, Repr

/-- PendingBit (R21): `none` is `unset`, `some b` the recorded bit. -/
abbrev Pending := Option Bool

/-- PulseCategory (R60): `l5` is -5, `inv` is 0 (Invalid), `h5` is +5; in the order of the key code category + 5 (R72). -/
inductive Category where
  | l5 | l4 | l3 | l2 | l1
  | inv
  | h1 | h2 | h3 | h4 | h5
  deriving DecidableEq, Repr

/-- The category as the integer of R60. -/
def Category.toInt : Category → Int
  | .l5 => -5 | .l4 => -4 | .l3 => -3 | .l2 => -2 | .l1 => -1
  | .inv => 0
  | .h1 => 1 | .h2 => 2 | .h3 => 3 | .h4 => 4 | .h5 => 5

/-- Token (R57): `SyncA`, `SyncB`, `Bit(0)`, `Bit(1)`. -/
inductive Token where
  | syncA
  | syncB
  | bit (b : Bool)
  deriving DecidableEq, Repr

/-- One `(level, duration)` segment of a waveform (R63), duration in microseconds. -/
structure Segment where
  level : Level
  duration : Nat
  deriving DecidableEq, Repr

/-- The two wire formats (R58): Format B, Legacy12, and Format A, Modern32. -/
inductive Version where
  | legacy12
  | modern32
  deriving DecidableEq, Repr

/-- The fields of a command other than its version (R58). -/
structure CmdFields where
  device : BitVec 24
  group : Bool
  channel : BitVec 4
  state : Bool
  deriving DecidableEq, Repr

/-- A Command (R58): the value the parser yields and the text codec reads and prints. -/
structure Command where
  version : Version
  fields : CmdFields
  deriving DecidableEq, Repr

/-- The validity invariant of a command (R59): for `Legacy12`, `device[23:8] = 0`, `channel = 0`, `group = false`. -/
def Command.valid (c : Command) : Bool :=
  match c.version with
  | .modern32 => true
  | .legacy12 => decide (c.fields.device.toNat < 256) && decide (c.fields.channel = 0) && !c.fields.group

/-- The results of the five emitting transitions as (token, next state): `Bit(b)` is emitted into `BitA0` by R101 and
into `BitB0` by R106 and R107. The operand of the row `PULSE.PUSH_OR_DROP` (log 9). -/
inductive Emission where
  | syncB
  | syncA
  | bitA (b : Bool)
  | bitB (b : Bool)
  deriving DecidableEq, Repr

/-- The two directions of the text codec's row `LINE`: parse a line given without its newline (R191), print a command (R192). -/
inductive LineOp where
  | parse (chars : List Byte)
  | print (c : Command)
  deriving DecidableEq, Repr

/-- A call that an agent makes on the block or on the host software, with its operand as the bits of a port: R72(g), "the
operation being chosen by which call or port is used". `mag`, `rxstep`, `token`, `frame12` and `frame32` carry the lookup
keys and words of R72, `transmit` the packed command of R59. The codes of `pushOrDrop` and `symbol` are the model's (log 2). -/
inductive Call where
  | mag (level : Level) (p : Nat)
  | rxstep (key : BitVec 10)
  | pulse (word : Nat)
  | pushOrDrop (code : BitVec 3)
  | token (cell : Byte)
  | pop
  | len
  | readOvf
  | transmit (cmd : BitVec 34) (repeats : Nat)
  | frame12 (word : BitVec 12)
  | frame32 (word : BitVec 32)
  | symbol (code : BitVec 3)
  | txstep
  | reset
  | parseToken (cell : Byte)
  | line (chars : List Byte)
  | printLine (cmd : BitVec 34)
  deriving DecidableEq, Repr

/-- The rows of spec/opcode_table.json, in the table's order. Operands are the bits the row leaves open: for a magnitude row
the pulse's level and the pattern's `d` bits, for a receive row the key bits outside its mask. -/
inductive Instr where
  -- format PULSE.MAG (R80 to R82)
  | magZero
  | magM1 (level : Level) (low : BitVec 9)
  | magM2Low (level : Level) (low : BitVec 9)
  | magM2High (level : Level) (low : BitVec 10)
  | magM3 (level : Level) (low : BitVec 11)
  | magM4 (level : Level) (low : BitVec 12)
  | magM5 (level : Level) (low : BitVec 13)
  | magInvLong (level : Level) (p : Nat)
  -- format RXSTEP (R91 to R110)
  | unknownL5 (pend : Pending)
  | synca1H1 (pend : Pending)
  | synca2L3 (pend : Pending)
  | synca2L2 (pend : Pending)
  | synca3H1 (pend : Pending)
  | bita0L2 (pend : Pending)
  | bita0L1 (pend : Pending)
  | bita1H1 (pend : Pending)
  | bita2L1P1
  | bita2L2P0
  | bita3H1 (b : Bool)
  | bitb0H1 (pend : Pending)
  | bitb1L2 (pend : Pending)
  | bitb2H2 (pend : Pending)
  | bitb2H1 (pend : Pending)
  | bitb3L1P1
  | bitb3L2P0
  | unknownOther (c : Category) (pend : Pending)
  | dflt (st : RxState) (c : Category) (pend : Pending)
  -- the receive operation (R90) and its push or drop (R114)
  | pulse (d : Int)
  | pulsePushOrDrop (e : Emission)
  -- format TOKEN (R57)
  | tokenSynca
  | tokenSyncb
  | tokenBit0
  | tokenBit1
  -- the consumer's operations (R131 to R134)
  | pop
  | len
  | readOvf
  -- TRANSMIT (R160, R161, R168)
  | transmitLegacy12 (f : CmdFields) (repeats : Nat)
  | transmitModern32 (f : CmdFields) (repeats : Nat)
  | transmitBadversion (v : BitVec 4) (f : CmdFields) (repeats : Nat)
  | transmitBusy (v : BitVec 4) (f : CmdFields) (repeats : Nat)
  -- formats FRAME12 and FRAME32 (R61, R62)
  | frame12 (device : BitVec 8) (state : Bool)
  | frame32 (f : CmdFields)
  -- format SEG (R152 to R159)
  | txSync12
  | txBit12One
  | txBit12Zero
  | txSync32
  | txBit32One
  | txBit32Zero
  | txTerm12
  | txTerm32
  -- the transmit agent's operation (R166, R167) and RESET (R230)
  | txstep
  | txstepFinal
  | reset
  -- host software (R181, R190)
  | parseToken (t : Token)
  | line (op : LineOp)
  deriving DecidableEq, Repr

end Sys2Proof
end

