-- ==== Sys2Proof/WellFormed.lean ====
section
/-! DEFINITION. WellFormed.lean: which terms of `Instr` a call can carry: field values outside a row's own range, and operands
wider than their port (R10, R11), are ill-formed. -/

namespace Sys2Proof

/-- The 17 pairs of R66, two of them split on `pending`, and `BitA3` with `H1` when a bit is pending (R101). -/
def listedPair (st : RxState) (c : Category) (pend : Pending) : Bool :=
  match st with
  | .unknown => c == .l5
  | .syncA1 => c == .h1
  | .syncA2 => c == .l3 || c == .l2
  | .syncA3 => c == .h1
  | .bitA0 => c == .l2 || c == .l1
  | .bitA1 => c == .h1
  | .bitA2 => (c == .l1 && pend == some true) || (c == .l2 && pend == some false)
  | .bitA3 => c == .h1 && pend.isSome
  | .bitB0 => c == .h1
  | .bitB1 => c == .l2
  | .bitB2 => c == .h2 || c == .h1
  | .bitB3 => (c == .l1 && pend == some true) || (c == .l2 && pend == some false)

/-- The integers a port of `w` bits in two's complement carries (R56). -/
def fitsSigned (w : Nat) (d : Int) : Bool := decide (-(2 ^ (w - 1) : Int) ≤ d) && decide (d < (2 ^ (w - 1) : Int))

/-- Well-formed instructions. A row that the table's priority order (R72) gives to an earlier row is ill-formed: `MAG.M1` with
all `d` bits 0 is `MAG.ZERO`, `UNKNOWN.OTHER` with `L5` is `UNKNOWN.L5`, `DEFAULT` with a listed pair is that pair's row. -/
def WellFormed (p : Params) (i : Instr) : Bool :=
  match i with
  | .magM1 _ low => low != 0
  | .magInvLong _ m => decide (Config.T5 ≤ m)
  | .unknownOther c _ => c != .l5
  | .dflt st c pend => st != .unknown && !listedPair st c pend
  | .pulse d => fitsSigned p.durW d
  | .transmitLegacy12 _ repeats => decide (repeats < 2 ^ p.repeatW)
  | .transmitModern32 _ repeats => decide (repeats < 2 ^ p.repeatW)
  | .transmitBadversion v _ repeats => v != 1 && v != 2 && decide (repeats < 2 ^ p.repeatW)
  | .transmitBusy _ _ repeats => decide (repeats < 2 ^ p.repeatW)
  | .magZero | .magM2Low _ _ | .magM2High _ _ | .magM3 _ _ | .magM4 _ _ | .magM5 _ _ => true
  | .unknownL5 _ | .synca1H1 _ | .synca2L3 _ | .synca2L2 _ | .synca3H1 _ => true
  | .bita0L2 _ | .bita0L1 _ | .bita1H1 _ | .bita2L1P1 | .bita2L2P0 | .bita3H1 _ => true
  | .bitb0H1 _ | .bitb1L2 _ | .bitb2H2 _ | .bitb2H1 _ | .bitb3L1P1 | .bitb3L2P0 => true
  | .pulsePushOrDrop _ => true
  | .tokenSynca | .tokenSyncb | .tokenBit0 | .tokenBit1 => true
  | .pop | .len | .readOvf => true
  | .frame12 _ _ | .frame32 _ => true
  | .txSync12 | .txBit12One | .txBit12Zero | .txSync32 | .txBit32One | .txBit32Zero | .txTerm12 | .txTerm32 => true
  | .txstep | .txstepFinal | .reset => true
  | .parseToken _ | .line _ => true

end Sys2Proof
end

