-- ==== Sys2Proof/Decode.lean ====
section
/-! DEFINITION. Decode.lean: from a call and its operand bits to a row of the table or a named rejection (30_encoding.md, R72), then
the encoder, written from the same encodings. Total on every call. -/

namespace Sys2Proof

/-- Why a call's operand bits stand for no operation (log 12). -/
inductive DecodeError where
  /-- A `PULSE` operand wider than `DUR_W` bits (R11). -/
  | durationWidth
  /-- A receive key whose state field is no code of R20 (12 to 15). -/
  | stateCode
  /-- A receive key whose category field is no category plus 5 (11 to 15), R72(b). -/
  | categoryCode
  /-- A receive key with `key[1] = 0` and `key[0] = 1`: R72(b) gives an unset bit the value 0. -/
  | pendingCode
  /-- A cell byte that is none of the four of R57. -/
  | tokenByte
  /-- A 12-bit word whose bits 8 to 10 in time order are not `0,1,1` (R61). -/
  | frame12Marker
  /-- A 32-bit word whose bits 24 and 25 in time order are not `1,0` (R62). -/
  | frame32Marker
  /-- A repeat count wider than `REPEAT_W` bits (R10). -/
  | repeatWidth
  /-- An emission code that is none of the model's six (log 2). -/
  | emissionCode
  /-- A command to print whose version code is neither 1 nor 2 (R59). -/
  | printVersion
  deriving DecidableEq, Repr

/-- What the choice of a row reads besides the call: the port widths, and the two conditions on the transmit registers by which
the table separates `TRANSMIT.BUSY` and `TXSTEP.FINAL` from the other rows of their calls (R168, R167). -/
structure DecodeCtx where
  params : Params
  txBusy : Bool
  onlyFinal : Bool
  deriving DecidableEq, Repr

/-! ### Codes -/

/-- The code of a receiver state (R20). -/
def RxState.code : RxState → BitVec 4
  | .unknown => 0 | .syncA1 => 1 | .syncA2 => 2 | .syncA3 => 3
  | .bitA0 => 4 | .bitA1 => 5 | .bitA2 => 6 | .bitA3 => 7
  | .bitB0 => 8 | .bitB1 => 9 | .bitB2 => 10 | .bitB3 => 11

/-- The receiver state of a code; none for 12 to 15. -/
def RxState.ofCode (n : BitVec 4) : Option RxState :=
  match n.toNat with
  | 0 => some .unknown | 1 => some .syncA1 | 2 => some .syncA2 | 3 => some .syncA3
  | 4 => some .bitA0 | 5 => some .bitA1 | 6 => some .bitA2 | 7 => some .bitA3
  | 8 => some .bitB0 | 9 => some .bitB1 | 10 => some .bitB2 | 11 => some .bitB3
  | _ => none

/-- The key code of a category, the category plus 5 (R72(b)). -/
def Category.code : Category → BitVec 4
  | .l5 => 0 | .l4 => 1 | .l3 => 2 | .l2 => 3 | .l1 => 4 | .inv => 5
  | .h1 => 6 | .h2 => 7 | .h3 => 8 | .h4 => 9 | .h5 => 10

/-- The category of a key code; none for 11 to 15. -/
def Category.ofCode (n : BitVec 4) : Option Category :=
  match n.toNat with
  | 0 => some .l5 | 1 => some .l4 | 2 => some .l3 | 3 => some .l2 | 4 => some .l1 | 5 => some .inv
  | 6 => some .h1 | 7 => some .h2 | 8 => some .h3 | 9 => some .h4 | 10 => some .h5
  | _ => none

/-- `key[1:0]` of a pending register: the set bit, then the value bit (R72(b)). -/
def pendingCode : Pending → BitVec 2
  | none => 0
  | some false => 2
  | some true => 3

/-- The pending register of `key[1:0]`; none for the code 1, "0 if not set" being violated. -/
def pendingOfCode (n : BitVec 2) : Option Pending :=
  match n.toNat with
  | 0 => some none
  | 2 => some (some false)
  | 3 => some (some true)
  | _ => none

/-- The 10-bit receive key (R72(b)): `key[9:6]` state, `key[5:2]` category plus 5, `key[1:0]` pending. -/
def keyOf (st : RxState) (c : Category) (pend : Pending) : BitVec 10 := st.code ++ c.code ++ pendingCode pend

/-- The cell byte of a token (R57; the ASCII codes of G1). -/
def Token.byte : Token → Byte
  | .syncA => 0x41
  | .syncB => 0x42
  | .bit false => 0x30
  | .bit true => 0x31

/-- The token of a cell byte. -/
def Token.ofByte (b : Byte) : Option Token :=
  match b.toNat with
  | 0x41 => some .syncA
  | 0x42 => some .syncB
  | 0x30 => some (.bit false)
  | 0x31 => some (.bit true)
  | _ => none

/-- The version's code in the text line and in the packed command (R59). -/
def Version.code : Version → BitVec 4
  | .legacy12 => 1
  | .modern32 => 2

/-- The version of a code; none for 0 ("reserved/invalid") and 3 to 15 (R59). -/
def Version.ofCode (v : BitVec 4) : Option Version :=
  match v.toNat with
  | 1 => some .legacy12
  | 2 => some .modern32
  | _ => none

/-- The packed command of R59: `cmd[33:30]` version, `cmd[29:6]` device, `cmd[5]` group, `cmd[4:1]` channel, `cmd[0]` state. -/
def packCmd (v : BitVec 4) (f : CmdFields) : BitVec 34 :=
  v ++ f.device ++ BitVec.ofBool f.group ++ f.channel ++ BitVec.ofBool f.state

/-- `cmd[33:30]` (R59). -/
def cmdVersion (cmd : BitVec 34) : BitVec 4 := cmd.extractLsb' 30 4

/-- The fields of a packed command other than its version (R59). -/
def cmdFields (cmd : BitVec 34) : CmdFields :=
  { device := cmd.extractLsb' 6 24, group := cmd.getLsbD 5, channel := cmd.extractLsb' 1 4, state := cmd.getLsbD 0 }

/-- The model's codes of the operand of `PULSE.PUSH_OR_DROP` (log 2). -/
def Emission.code : Emission → BitVec 3
  | .syncB => 0 | .syncA => 1 | .bitA false => 2 | .bitA true => 3 | .bitB false => 4 | .bitB true => 5

/-- The emission of a code; none for 6 and 7. -/
def Emission.ofCode (n : BitVec 3) : Option Emission :=
  match n.toNat with
  | 0 => some .syncB | 1 => some .syncA
  | 2 => some (.bitA false) | 3 => some (.bitA true) | 4 => some (.bitB false) | 5 => some (.bitB true)
  | _ => none

/-! ### Row selection -/

/-- The `PULSE.MAG` row of a magnitude (R72(a)), in the table's order; every `p >= 32768` takes `MAG.INV.LONG`. -/
def magRow (level : Level) (p : Nat) : Instr :=
  if p = 0 then .magZero
  else if p < 512 then .magM1 level (BitVec.ofNat 9 p)
  else if p < 1024 then .magM2Low level (BitVec.ofNat 9 p)
  else if p < 2048 then .magM2High level (BitVec.ofNat 10 p)
  else if p < 4096 then .magM3 level (BitVec.ofNat 11 p)
  else if p < 8192 then .magM4 level (BitVec.ofNat 12 p)
  else if p < 16384 then .magM5 level (BitVec.ofNat 13 p)
  else .magInvLong level p

/-- The `RXSTEP` row of a state, a category and a pending register (R66, R72(b)), in the table's order. -/
def rxRowOf (st : RxState) (c : Category) (pend : Pending) : Instr :=
  match st with
  | .unknown =>
    match c with
    | .l5 => .unknownL5 pend
    | c => .unknownOther c pend
  | .syncA1 =>
    match c with
    | .h1 => .synca1H1 pend
    | c => .dflt .syncA1 c pend
  | .syncA2 =>
    match c with
    | .l3 => .synca2L3 pend
    | .l2 => .synca2L2 pend
    | c => .dflt .syncA2 c pend
  | .syncA3 =>
    match c with
    | .h1 => .synca3H1 pend
    | c => .dflt .syncA3 c pend
  | .bitA0 =>
    match c with
    | .l2 => .bita0L2 pend
    | .l1 => .bita0L1 pend
    | c => .dflt .bitA0 c pend
  | .bitA1 =>
    match c with
    | .h1 => .bita1H1 pend
    | c => .dflt .bitA1 c pend
  | .bitA2 =>
    match c, pend with
    | .l1, some true => .bita2L1P1
    | .l2, some false => .bita2L2P0
    | c, pend => .dflt .bitA2 c pend
  | .bitA3 =>
    match c, pend with
    | .h1, some b => .bita3H1 b
    | c, pend => .dflt .bitA3 c pend
  | .bitB0 =>
    match c with
    | .h1 => .bitb0H1 pend
    | c => .dflt .bitB0 c pend
  | .bitB1 =>
    match c with
    | .l2 => .bitb1L2 pend
    | c => .dflt .bitB1 c pend
  | .bitB2 =>
    match c with
    | .h2 => .bitb2H2 pend
    | .h1 => .bitb2H1 pend
    | c => .dflt .bitB2 c pend
  | .bitB3 =>
    match c, pend with
    | .l1, some true => .bitb3L1P1
    | .l2, some false => .bitb3L2P0
    | c, pend => .dflt .bitB3 c pend

/-- A receive key to its row, or the field that holds no code. -/
def decodeKey (key : BitVec 10) : Except DecodeError Instr :=
  match RxState.ofCode (key.extractLsb' 6 4) with
  | none => .error .stateCode
  | some st =>
    match Category.ofCode (key.extractLsb' 2 4) with
    | none => .error .categoryCode
    | some c =>
      match pendingOfCode (key.extractLsb' 0 2) with
      | none => .error .pendingCode
      | some pend => .ok (rxRowOf st c pend)

/-- A `PULSE` operand word of `w` bits in two's complement (R56). -/
def decodePulse (w word : Nat) : Except DecodeError Instr :=
  if word < 2 ^ w then .ok (.pulse (BitVec.ofNat w word).toInt) else .error .durationWidth

/-- A cell byte to its `TOKEN` row (R57, R72(c)). -/
def decodeToken (cell : Byte) : Except DecodeError Instr :=
  match Token.ofByte cell with
  | some .syncA => .ok .tokenSynca
  | some .syncB => .ok .tokenSyncb
  | some (.bit false) => .ok .tokenBit0
  | some (.bit true) => .ok .tokenBit1
  | none => .error .tokenByte

/-- A `TRANSMIT` call to its row: busy is "tested before the version" (R168, R73), then `cmd[33:30]` decides (R72(d)). -/
def decodeTransmit (ctx : DecodeCtx) (cmd : BitVec 34) (repeats : Nat) : Except DecodeError Instr :=
  if 2 ^ ctx.params.repeatW ≤ repeats then .error .repeatWidth
  else if ctx.txBusy then .ok (.transmitBusy (cmdVersion cmd) (cmdFields cmd) repeats)
  else
    match Version.ofCode (cmdVersion cmd) with
    | some .legacy12 => .ok (.transmitLegacy12 (cmdFields cmd) repeats)
    | some .modern32 => .ok (.transmitModern32 (cmdFields cmd) repeats)
    | none => .ok (.transmitBadversion (cmdVersion cmd) (cmdFields cmd) repeats)

/-- A 12-bit word read in time order from bit 11 down, `dddddddd011s` (R61, R72(e)). -/
def decodeFrame12 (w : BitVec 12) : Except DecodeError Instr :=
  if w.extractLsb' 1 3 = 0b011#3 then .ok (.frame12 (w.extractLsb' 4 8) (w.getLsbD 0)) else .error .frame12Marker

/-- A 32-bit word read in time order from bit 31 down, `dddddddddddddddddddddddd10gscccc` (R62, R72(e)). -/
def decodeFrame32 (w : BitVec 32) : Except DecodeError Instr :=
  if w.extractLsb' 6 2 = 0b10#2 then
    .ok (.frame32 { device := w.extractLsb' 8 24, group := w.getLsbD 5, state := w.getLsbD 4, channel := w.extractLsb' 0 4 })
  else .error .frame32Marker

/-- The `SEG` row of the model's symbol code, numbered in the table's order (log 2). -/
def decodeSymbol (n : BitVec 3) : Instr :=
  match n.toNat with
  | 0 => .txSync12
  | 1 => .txBit12One
  | 2 => .txBit12Zero
  | 3 => .txSync32
  | 4 => .txBit32One
  | 5 => .txBit32Zero
  | 6 => .txTerm12
  | _ => .txTerm32

/-- A packed command to print; the version must be one of the two (R59). -/
def decodePrint (cmd : BitVec 34) : Except DecodeError Instr :=
  match Version.ofCode (cmdVersion cmd) with
  | some v => .ok (.line (.print { version := v, fields := cmdFields cmd }))
  | none => .error .printVersion

/-- The row that applies to a call, or why none does. -/
def decode (ctx : DecodeCtx) (c : Call) : Except DecodeError Instr :=
  match c with
  | .mag level p => .ok (magRow level p)
  | .rxstep key => decodeKey key
  | .pulse word => decodePulse ctx.params.durW word
  | .pushOrDrop code =>
    match Emission.ofCode code with
    | some e => .ok (.pulsePushOrDrop e)
    | none => .error .emissionCode
  | .token cell => decodeToken cell
  | .pop => .ok .pop
  | .len => .ok .len
  | .readOvf => .ok .readOvf
  | .transmit cmd repeats => decodeTransmit ctx cmd repeats
  | .frame12 w => decodeFrame12 w
  | .frame32 w => decodeFrame32 w
  | .symbol n => .ok (decodeSymbol n)
  | .txstep => .ok (if ctx.onlyFinal then .txstepFinal else .txstep)
  | .reset => .ok .reset
  | .parseToken cell =>
    match Token.ofByte cell with
    | some t => .ok (.parseToken t)
    | none => .error .tokenByte
  | .line chars => .ok (.line (.parse chars))
  | .printLine cmd => decodePrint cmd

/-! ### The encoder -/

/-- The call that carries an instruction, written from the encodings of R57, R59, R61, R62, R72. -/
def encode (p : Params) (i : Instr) : Call :=
  match i with
  | .magZero => .mag .high 0
  | .magM1 level low => .mag level low.toNat
  | .magM2Low level low => .mag level (512 + low.toNat)
  | .magM2High level low => .mag level (1024 + low.toNat)
  | .magM3 level low => .mag level (2048 + low.toNat)
  | .magM4 level low => .mag level (4096 + low.toNat)
  | .magM5 level low => .mag level (8192 + low.toNat)
  | .magInvLong level m => .mag level m
  | .unknownL5 pend => .rxstep (keyOf .unknown .l5 pend)
  | .synca1H1 pend => .rxstep (keyOf .syncA1 .h1 pend)
  | .synca2L3 pend => .rxstep (keyOf .syncA2 .l3 pend)
  | .synca2L2 pend => .rxstep (keyOf .syncA2 .l2 pend)
  | .synca3H1 pend => .rxstep (keyOf .syncA3 .h1 pend)
  | .bita0L2 pend => .rxstep (keyOf .bitA0 .l2 pend)
  | .bita0L1 pend => .rxstep (keyOf .bitA0 .l1 pend)
  | .bita1H1 pend => .rxstep (keyOf .bitA1 .h1 pend)
  | .bita2L1P1 => .rxstep (keyOf .bitA2 .l1 (some true))
  | .bita2L2P0 => .rxstep (keyOf .bitA2 .l2 (some false))
  | .bita3H1 b => .rxstep (keyOf .bitA3 .h1 (some b))
  | .bitb0H1 pend => .rxstep (keyOf .bitB0 .h1 pend)
  | .bitb1L2 pend => .rxstep (keyOf .bitB1 .l2 pend)
  | .bitb2H2 pend => .rxstep (keyOf .bitB2 .h2 pend)
  | .bitb2H1 pend => .rxstep (keyOf .bitB2 .h1 pend)
  | .bitb3L1P1 => .rxstep (keyOf .bitB3 .l1 (some true))
  | .bitb3L2P0 => .rxstep (keyOf .bitB3 .l2 (some false))
  | .unknownOther c pend => .rxstep (keyOf .unknown c pend)
  | .dflt st c pend => .rxstep (keyOf st c pend)
  | .pulse d => .pulse (BitVec.ofInt p.durW d).toNat
  | .pulsePushOrDrop e => .pushOrDrop e.code
  | .tokenSynca => .token Token.syncA.byte
  | .tokenSyncb => .token Token.syncB.byte
  | .tokenBit0 => .token (Token.bit false).byte
  | .tokenBit1 => .token (Token.bit true).byte
  | .pop => .pop
  | .len => .len
  | .readOvf => .readOvf
  | .transmitLegacy12 f repeats => .transmit (packCmd 1 f) repeats
  | .transmitModern32 f repeats => .transmit (packCmd 2 f) repeats
  | .transmitBadversion v f repeats => .transmit (packCmd v f) repeats
  | .transmitBusy v f repeats => .transmit (packCmd v f) repeats
  | .frame12 device state => .frame12 (device ++ 0b011#3 ++ BitVec.ofBool state)
  | .frame32 f => .frame32 (f.device ++ 0b10#2 ++ BitVec.ofBool f.group ++ BitVec.ofBool f.state ++ f.channel)
  | .txSync12 => .symbol 0
  | .txBit12One => .symbol 1
  | .txBit12Zero => .symbol 2
  | .txSync32 => .symbol 3
  | .txBit32One => .symbol 4
  | .txBit32Zero => .symbol 5
  | .txTerm12 => .symbol 6
  | .txTerm32 => .symbol 7
  | .txstep => .txstep
  | .txstepFinal => .txstep
  | .reset => .reset
  | .parseToken t => .parseToken t.byte
  | .line (.parse chars) => .line chars
  | .line (.print c) => .printLine (packCmd c.version.code c.fields)

/-- A call's unbounded operands fit their ports (R10, R11): a `PULSE` word has at most `DUR_W` bits, a repeat count at most `REPEAT_W`;
every other operand is a bit string of its own width, or a magnitude or a line of any length. -/
def Call.fits (p : Params) (c : Call) : Bool :=
  match c with
  | .pulse word => decide (word < 2 ^ p.durW)
  | .transmit _ repeats => decide (repeats < 2 ^ p.repeatW)
  | .mag _ _ | .rxstep _ | .pushOrDrop _ | .token _ | .pop | .len | .readOvf | .frame12 _ | .frame32 _ | .symbol _ => true
  | .txstep | .reset | .parseToken _ | .line _ | .printLine _ => true

/-- The condition on the transmit registers under which a row is the one that applies to its call: `TRANSMIT.BUSY` while busy and
the other `TRANSMIT` rows otherwise (R168), `TXSTEP.FINAL` when only the marker is left and `TXSTEP` otherwise (R167). -/
def Instr.selectedBy (i : Instr) (ctx : DecodeCtx) : Bool :=
  match i with
  | .transmitBusy _ _ _ => ctx.txBusy
  | .transmitLegacy12 _ _ | .transmitModern32 _ _ | .transmitBadversion _ _ _ => !ctx.txBusy
  | .txstepFinal => ctx.onlyFinal
  | .txstep => !ctx.onlyFinal
  | _ => true

/-! ### Words numbered as the opcode table numbers them -/

/-- The call a word of the table is an operand of, by its number of bits (log 21): 8 a cell byte, 10 a receive key, 12 a Legacy12
frame word, 15 a magnitude of a HIGH pulse, 32 a Modern32 frame word, 34 or (in whole bytes) 40 a packed command with repeat
count 0. In 16 bits, a word below 1024 is a receive key and any other a magnitude. -/
def tableCall (nbits w : Nat) : Option Call :=
  match nbits with
  | 8 => if w < 256 then some (.token (BitVec.ofNat 8 w)) else none
  | 10 => if w < 1024 then some (.rxstep (BitVec.ofNat 10 w)) else none
  | 12 => if w < 4096 then some (.frame12 (BitVec.ofNat 12 w)) else none
  | 15 => if w < 32768 then some (.mag .high w) else none
  | 16 => if w < 1024 then some (.rxstep (BitVec.ofNat 10 w)) else if w < 65536 then some (.mag .high w) else none
  | 32 => if w < 2 ^ 32 then some (.frame32 (BitVec.ofNat 32 w)) else none
  | 34 => if w < 2 ^ 34 then some (.transmit (BitVec.ofNat 34 w) 0) else none
  | 40 => if w < 2 ^ 34 then some (.transmit (BitVec.ofNat 34 w) 0) else none
  | _ => none

/-- The instruction the decoder reads from a word of the opcode table, with the suggested port widths and the transmitter idle. -/
def decodeTableWord (nbits w : Nat) : Option Instr :=
  match tableCall nbits w with
  | none => none
  | some c =>
    match decode { params := Params.suggested, txBusy := false, onlyFinal := false } c with
    | .ok i => some i
    | .error _ => none

end Sys2Proof
end

