-- ==== Sys2Proof/Machine/State.lean ====
section
/-! DEFINITION. Machine/State.lean: everything the spec gives the machine (10_state.md R20 to R35), the outputs of a step, the host
software's parser state (R180) and the list of calls still to be made; the stops; the state after reset. -/

namespace Sys2Proof.Machine

/-- One entry of `tx_queue` (R28, R160): a segment still to be put out, or the final-level marker. -/
inductive TxEntry where
  | seg (s : Segment)
  | final (level : Level)
  deriving DecidableEq, Repr

/-- What an operation returns to its caller: `POP` the popped token or `none` (R131, R132), `LEN` the length (R133), `READ_OVF` the
count (R134), the classifier a category (R80), a token row its token (R57), a frame row its bits in time order (R61, R62), a symbol
row its segments and final level (R152 to R159), the parser and the text codec a command or none (R180, R191), printing its
characters (R192). -/
inductive Ret where
  | none
  | popped (t : Option Token)
  | length (n : Nat)
  | overflows (n : Nat)
  | category (c : Category)
  | token (t : Token)
  | frame (bits : List Bool)
  | symbol (segs : List Segment) (final : Option Level)
  | command (c : Option Command)
  | text (chars : List Byte)
  deriving DecidableEq, Repr

/-- What `InvalidPulse` records (R201): the duration; a receive row applied by its key knows only the category (log 8). -/
inductive PulseInfo where
  | duration (d : Int)
  | categoryOnly
  deriving DecidableEq, Repr

/-- The error classes of R200. -/
inductive ErrorClass where
  | invalidPulse
  | desync
  | incompleteFrame
  | overflow
  | malformedText
  deriving DecidableEq, Repr

/-- The codes 1 to 5 of R200 (D23). -/
def ErrorClass.code : ErrorClass → Nat
  | .invalidPulse => 1
  | .desync => 2
  | .incompleteFrame => 3
  | .overflow => 4
  | .malformedText => 5

/-- The outputs of one step (R26, R30(f), R200): replaced by every step, held by none. Each error class has its own field, so the
events of a step are a set (R209), and the field holds what the event records (R201, R202, R204). -/
structure Outputs where
  ret : Ret := .none
  pushed : Option Token := Option.none
  frameEnd : Bool := false
  invalidPulse : Option PulseInfo := Option.none
  desync : Option (RxState × Category) := Option.none
  overflow : Option Token := Option.none
  incompleteFrame : Bool := false
  malformedText : Bool := false
  deriving DecidableEq, Repr

/-- The step signals this class. -/
def Outputs.signals (o : Outputs) : ErrorClass → Bool
  | .invalidPulse => o.invalidPulse.isSome
  | .desync => o.desync.isSome
  | .incompleteFrame => o.incompleteFrame
  | .overflow => o.overflow.isSome
  | .malformedText => o.malformedText

/-- `p_mode` of the Command Parser (R180). -/
inductive ParserMode where
  | none
  | a
  | b
  deriving DecidableEq, Repr

/-- The Command Parser's two variables (R180): host state, not the block's. -/
structure Parser where
  mode : ParserMode := .none
  bits : List Bool := []
  deriving DecidableEq, Repr

/-- The whole machine: the registers of R31, then the step's outputs, the transmit output trace (R16), the host's parser (R180), the
open parameters (log 3) and, the model's own field, the calls the agents have still to make, oldest first (log 1). -/
structure State where
  rxState : RxState
  pending : Pending
  fifo : List Token
  ovfCount : Nat
  pin : Level
  txQueue : List TxEntry
  txBusy : Bool
  out : Outputs
  trace : List Segment
  parser : Parser
  params : Params
  input : List Call
  deriving DecidableEq, Repr

/-- Why the machine stops with a fault. -/
inductive Fault where
  /-- Raised by `TXSTEP` and `TXSTEP.FINAL` with `tx_busy = 0`, which "has no step" (R166). Safe: no next state is claimed. -/
  | txIdle
  /-- Raised by `TXSTEP` and `TXSTEP.FINAL` with `tx_busy = 1` when `tx_queue` is empty or a final-level marker is not its last entry:
  R166 and R167 give no step there, and no run from reset reaches it. Safe: no next state is claimed. -/
  | txQueueMalformed
  deriving DecidableEq, Repr

/-- Why the machine refuses to go on. -/
inductive Refusal where
  /-- Raised by `exec` for an instruction that has no meaning in this model yet. Safe: no next state is claimed. -/
  | notModelled (mnemonic : String)
  /-- Raised by `step` for a call whose operand bits stand for no operation (log 12). Safe: no next state is claimed. -/
  | undecodable (e : DecodeError)
  deriving DecidableEq, Repr

/-- The machine at power-on (R231, R35), with nothing put out, the parser as R180 starts it, the suggested parameters (log 3) and no
call waiting (log 1). -/
def State.reset : State :=
  { rxState := .unknown, pending := none, fifo := [], ovfCount := 0, pin := .low, txQueue := [], txBusy := false,
    out := {}, trace := [], parser := {}, params := Params.suggested, input := [] }

end Sys2Proof.Machine
end

