-- ==== Sys2Proof/Machine/Operands.lean ====
section
/-! DEFINITION. Machine/Operands.lean: operand assembly (R64): durations to categories (40_classify.md), commands to frame bits and
back (R61, R62, R150, R151, R184 to R186), and the characters of the text line (R190 to R192). -/

namespace Sys2Proof.Machine

/-! ### The Pulse Classifier -/

/-- A magnitude 1 to 5 with the pulse's polarity reapplied (R80); any other magnitude is Invalid. -/
def signedCategory (level : Level) (m : Nat) : Category :=
  match level, m with
  | .high, 1 => .h1 | .high, 2 => .h2 | .high, 3 => .h3 | .high, 4 => .h4 | .high, 5 => .h5
  | .low, 1 => .l1 | .low, 2 => .l2 | .low, 3 => .l3 | .low, 4 => .l4 | .low, 5 => .l5
  | _, _ => .inv

/-- The magnitude bucket of `p = abs(d)` (R80), 0 for Invalid (R81, R82). -/
def magnitude (p : Nat) : Nat :=
  if p = 0 then 0
  else if Config.T5 ≤ p then 0
  else if p < Config.T1 then 1
  else if p < Config.T2 then 2
  else if p < Config.T3 then 3
  else if p < Config.T4 then 4
  else 5

/-- The polarity of a duration (R15): positive is HIGH. -/
def polarity (d : Int) : Level := if 0 < d then .high else .low

/-- The duration of a pulse of a level and a magnitude in microseconds (R15). -/
def signedDuration (level : Level) (p : Nat) : Int :=
  match level with
  | .high => (p : Int)
  | .low => -(p : Int)

/-- `classify(d)` (R80), on every integer. -/
def classify (d : Int) : Category := signedCategory (polarity d) (magnitude d.natAbs)

/-! ### Frames -/

/-- The bits of a field, most significant first (R61, R62). -/
def msbFirst {w : Nat} (v : BitVec w) : List Bool := (List.range w).map fun i => v.getMsbD i

/-- The number whose bits, most significant first, are the list (R185, R186). -/
def ofBits (bits : List Bool) : Nat := bits.foldl (fun n b => 2 * n + b.toNat) 0

/-- `frame12(cmd)` (R150): the low byte of the device, `0,1,1`, the state. -/
def frame12Bits (f : CmdFields) : List Bool := msbFirst (f.device.extractLsb' 0 8) ++ [false, true, true, f.state]

/-- `frame32(cmd)` (R151): the device, `1,0`, the group, the state, the channel. -/
def frame32Bits (f : CmdFields) : List Bool := msbFirst f.device ++ [true, false, f.group, f.state] ++ msbFirst f.channel

/-- The frame of a command (R150, R151). -/
def frameBits (c : Command) : List Bool :=
  match c.version with
  | .legacy12 => frame12Bits c.fields
  | .modern32 => frame32Bits c.fields

/-- The sync token of a command's format (R67). -/
def syncToken : Version → Token
  | .legacy12 => .syncB
  | .modern32 => .syncA

/-- The decode of a complete Legacy12 frame (R184, R185): none if bits 8 to 10 are not `0,1,1`. -/
def decodeLegacy12 (bits : List Bool) : Option Command :=
  if (bits.drop 8).take 3 = [false, true, true] then
    some
      { version := .legacy12
        fields := { device := BitVec.ofNat 24 (ofBits (bits.take 8)), group := false, channel := 0, state := bits.getD 11 false } }
  else none

/-- The decode of a complete Modern32 frame (R184, R186): none if bits 24 and 25 are not `1,0`. -/
def decodeModern32 (bits : List Bool) : Option Command :=
  if (bits.drop 24).take 2 = [true, false] then
    some
      { version := .modern32
        fields :=
          { device := BitVec.ofNat 24 (ofBits (bits.take 24)), group := bits.getD 26 false, state := bits.getD 27 false
            channel := BitVec.ofNat 4 (ofBits ((bits.drop 28).take 4)) } }
  else none

/-! ### The text line -/

/-- `:` in ASCII (log 17). -/
def colon : Byte := 0x3A

/-- The newline in ASCII (log 17). -/
def newline : Byte := 0x0A

/-- The value of a hex digit, either case (R191); none for any other character. -/
def hexValue (ch : Byte) : Option Nat :=
  let n := ch.toNat
  if 0x30 ≤ n ∧ n ≤ 0x39 then some (n - 0x30)
  else if 0x41 ≤ n ∧ n ≤ 0x46 then some (n - 0x41 + 10)
  else if 0x61 ≤ n ∧ n ≤ 0x66 then some (n - 0x61 + 10)
  else none

/-- The character of a hex digit below 16, upper case (R192). -/
def hexChar (n : Nat) : Byte := if n < 10 then BitVec.ofNat 8 (0x30 + n) else BitVec.ofNat 8 (0x41 + n - 10)

/-- A group or state character (R190): `0` or `1`. -/
def boolValue (ch : Byte) : Option Bool :=
  match ch.toNat with
  | 0x30 => some false
  | 0x31 => some true
  | _ => none

/-- The character of a group or state bit (R192). -/
def boolChar (b : Bool) : Byte := if b then 0x31 else 0x30

/-- The version of its character (R190, R191): `1` or `2`. -/
def versionValue (ch : Byte) : Option Version :=
  match hexValue ch with
  | some 1 => some .legacy12
  | some 2 => some .modern32
  | _ => none

/-- The character of a version (R192). -/
def versionChar : Version → Byte
  | .legacy12 => 0x31
  | .modern32 => 0x32

/-- The value of a run of hex digits, most significant first (R190); none if any character is no hex digit. -/
def hexNumber : List Byte → Option Nat
  | [] => some 0
  | chars => chars.foldl (fun acc ch => match acc, hexValue ch with | some n, some d => some (16 * n + d) | _, _ => none) (some 0)

/-- Hex digit `i` of a number, digit 0 the least significant. -/
def hexDigit (n i : Nat) : Nat := n / 16 ^ i % 16

/-- Parsing a line given without its newline (R190, R191): `V:DDDDDD:G:C:S`, 14 characters. -/
def parseLine (chars : List Byte) : Option Command :=
  match chars with
  | [v, k1, d5, d4, d3, d2, d1, d0, k8, g, k10, c, k12, s] =>
    if k1 = colon ∧ k8 = colon ∧ k10 = colon ∧ k12 = colon then
      match versionValue v, hexNumber [d5, d4, d3, d2, d1, d0], boolValue g, hexValue c, boolValue s with
      | some version, some device, some group, some channel, some state =>
        some
          { version := version
            fields := { device := BitVec.ofNat 24 device, group := group, channel := BitVec.ofNat 4 channel, state := state } }
      | _, _, _, _, _ => none
    else none
  | _ => none

/-- The 14 characters of a command's line (R190, R192). -/
def lineChars (c : Command) : List Byte :=
  let d := c.fields.device.toNat
  [versionChar c.version, colon, hexChar (hexDigit d 5), hexChar (hexDigit d 4), hexChar (hexDigit d 3), hexChar (hexDigit d 2),
    hexChar (hexDigit d 1), hexChar (hexDigit d 0), colon, boolChar c.fields.group, colon, hexChar c.fields.channel.toNat, colon,
    boolChar c.fields.state]

/-- Printing a command (R192): its line and the newline. -/
def printLine (c : Command) : List Byte := lineChars c ++ [newline]

end Sys2Proof.Machine
end

