-- ==== Sys2Proof/Machine/Flags.lean ====
section
/-! DEFINITION. Machine/Flags.lean: the predicates a step tests (R33 of 10_state.md) and the strobes it computes (R116, R202). -/

namespace Sys2Proof.Machine

/-- `FifoLen()` (R16). -/
def fifoLen (s : State) : Nat := s.fifo.length

/-- The predicate "buffer full" (R33): a token to push finds no room (R114). -/
def fifoFull (s : State) : Bool := decide (s.params.tokenCap ≤ fifoLen s)

/-- The predicate "buffer empty" (R33, R133). -/
def fifoEmpty (s : State) : Bool := decide (fifoLen s = 0)

/-- `frame_end` (R116): from a state other than `Unknown` to `Unknown`. -/
def frameEndOf (old next : RxState) : Bool := old != .unknown && next == .unknown

/-- The counter after one more dropped token (R114, R12). -/
def ovfNext (s : State) : Nat := min (s.ovfCount + 1) s.params.ovfMax

/-- Only the final-level marker is left (R167). -/
def onlyFinal (s : State) : Bool :=
  match s.txQueue with
  | [.final _] => s.txBusy
  | _ => false

/-- What the choice of a row reads of the state (R168, R167). -/
def decodeCtx (s : State) : DecodeCtx := { params := s.params, txBusy := s.txBusy, onlyFinal := onlyFinal s }

/-- The length at which a parser mode's frame is complete (R181). -/
def frameLength : ParserMode → Nat
  | .none => 0
  | .a => Config.bitsA
  | .b => Config.bitsB

end Sys2Proof.Machine
end

