-- ==== Sys2Proof/Machine/Ops.lean ====
section
/-! DEFINITION. Machine/Ops.lean: the operations over registers and buffer that the meanings share. The block's one abort, the
return to `Unknown` (R210), is `rxAbort`; there is no return from it (R211). -/

namespace Sys2Proof.Machine

/-! ### One write each -/

/-- The step's outputs. -/
def setOut (s : State) (o : Outputs) : State := { s with out := o }

/-- `rx_state <- next; pending <- pend`. -/
def setRx (s : State) (next : RxState) (pend : Pending) : State := { s with rxState := next, pending := pend }

/-- `FifoPush(t)` (R16): append at the tail. -/
def fifoPush (s : State) (t : Token) : State := { s with fifo := s.fifo ++ [t] }

/-- The buffer without its head (`FifoPop`, R16). -/
def fifoDrop (s : State) : State := { s with fifo := s.fifo.tail }

/-- One dropped token counted, saturating (R114). -/
def countDrop (s : State) : State := { s with ovfCount := ovfNext s }

/-- `Out(level, duration)` (R16): the trace gains the segment and `pin <- level`. -/
def putOut (s : State) (seg : Segment) : State := { s with pin := seg.level, trace := s.trace ++ [seg] }

/-- `pin <- level` with no wait (R167). -/
def setPin (s : State) (level : Level) : State := { s with pin := level }

/-- `tx_queue <- queue; tx_busy <- busy`. -/
def setTx (s : State) (queue : List TxEntry) (busy : Bool) : State := { s with txQueue := queue, txBusy := busy }

/-- The parser's variables. -/
def setParser (s : State) (p : Parser) : State := { s with parser := p }

/-- The calls still to be made. -/
def setInput (s : State) (calls : List Call) : State := { s with input := calls }

/-- Only a value is returned: no register changes. -/
def returning (s : State) (r : Ret) : State := setOut s { ret := r }

/-! ### The receive step -/

/-- What a receive transition yields (R90): the next state, the token to push if any, the pending register. -/
structure RxResult where
  next : RxState
  tok : Option Token
  pend : Pending
  deriving DecidableEq, Repr

/-- A mismatch (R108, R109): to `Unknown`, nothing emitted, pending cleared. -/
def RxResult.mismatch : RxResult := { next := .unknown, tok := none, pend := none }

/-- A transition that emits nothing. -/
def RxResult.go (next : RxState) (pend : Pending) : RxResult := { next := next, tok := none, pend := pend }

/-- A transition that emits a token; every one of the five clears pending. -/
def RxResult.emit (next : RxState) (t : Token) : RxResult := { next := next, tok := some t, pend := none }

/-- `rx_next(old, c, pending)` (R91 to R110), by the rows of the table of R111. -/
def rxNext (old : RxState) (c : Category) (pend : Pending) : RxResult :=
  match old with
  | .unknown =>
    match c with
    | .l5 => .go .syncA1 none
    | _ => .mismatch
  | .syncA1 =>
    match c with
    | .h1 => .go .syncA2 none
    | _ => .mismatch
  | .syncA2 =>
    match c with
    | .l3 => .go .syncA3 none
    | .l2 => .emit .bitB2 .syncB
    | _ => .mismatch
  | .syncA3 =>
    match c with
    | .h1 => .emit .bitA0 .syncA
    | _ => .mismatch
  | .bitA0 =>
    match c with
    | .l2 => .go .bitA1 (some true)
    | .l1 => .go .bitA1 (some false)
    | _ => .mismatch
  | .bitA1 =>
    match c with
    | .h1 => .go .bitA2 pend
    | _ => .mismatch
  | .bitA2 =>
    match c, pend with
    | .l1, some true => .go .bitA3 (some true)
    | .l2, some false => .go .bitA3 (some false)
    | _, _ => .mismatch
  | .bitA3 =>
    match c, pend with
    | .h1, some b => .emit .bitA0 (.bit b)
    | _, _ => .mismatch
  | .bitB0 =>
    match c with
    | .h1 => .go .bitB1 none
    | _ => .mismatch
  | .bitB1 =>
    match c with
    | .l2 => .go .bitB2 none
    | _ => .mismatch
  | .bitB2 =>
    match c with
    | .h2 => .go .bitB3 (some true)
    | .h1 => .go .bitB3 (some false)
    | _ => .mismatch
  | .bitB3 =>
    match c, pend with
    | .l1, some true => .emit .bitB0 (.bit true)
    | .l2, some false => .emit .bitB0 (.bit false)
    | _, _ => .mismatch

/-- The `InvalidPulse` event of a step with category `c` (R90, R201). -/
def invalidEvent (c : Category) (info : PulseInfo) : Option PulseInfo := if c = .inv then some info else none

/-- The return to `Unknown` (R210): nothing is saved, `rx_state <- Unknown` and `pending <- unset`. -/
def rxAbort (s : State) : State := setRx s .unknown none

/-- `push_or_drop(tok, next, pend')` (R114) and the registers it leads to: the token pushed and the transition's own target, or, the
buffer being full, the token dropped, the drop counted and the return to `Unknown`. -/
def pushOrDrop (s : State) (t : Token) (next : RxState) (pend : Pending) : State :=
  if fifoFull s then rxAbort (countDrop s) else setRx (fifoPush s t) next pend

/-- The end of a receive step (R90): the registers a transition's result leads to, and the step's outputs. `old` is the state before
the step, `c` its category, `info` what `InvalidPulse` records. -/
def rxCommit (c : Category) (info : PulseInfo) (r : RxResult) (s : State) : State :=
  match r.tok with
  | none =>
    setOut (setRx s r.next r.pend)
      { frameEnd := frameEndOf s.rxState r.next
        invalidPulse := invalidEvent c info
        desync := if frameEndOf s.rxState r.next then some (s.rxState, c) else none }
  | some t =>
    if fifoFull s then
      setOut (pushOrDrop s t r.next r.pend)
        { frameEnd := frameEndOf s.rxState .unknown, invalidPulse := invalidEvent c info, overflow := some t }
    else
      setOut (pushOrDrop s t r.next r.pend)
        { pushed := some t
          frameEnd := frameEndOf s.rxState r.next
          invalidPulse := invalidEvent c info
          desync := if frameEndOf s.rxState r.next then some (s.rxState, c) else none }

/-- A receive step with category `c` from the machine's own state and pending register (R90). -/
def rxStep (c : Category) (info : PulseInfo) (s : State) : State :=
  rxCommit c info (rxNext s.rxState c s.pending) s

/-- A receive row applied by its key: where `applies` says that the machine's own state and pending register are the row's, the row's
own result; otherwise the row that does apply to the same category (log 6). -/
def rxRow (applies : Bool) (c : Category) (r : RxResult) (s : State) : State :=
  if applies then rxCommit c .categoryOnly r s else rxStep c .categoryOnly s

/-- The token and the target of an emission (R94, R95, R101, R106, R107). -/
def emissionResult : Emission → Token × RxState
  | .syncB => (.syncB, .bitB2)
  | .syncA => (.syncA, .bitA0)
  | .bitA b => (.bit b, .bitA0)
  | .bitB b => (.bit b, .bitB0)

end Sys2Proof.Machine
end

