-- ==== Sys2Proof/Machine/Buffer.lean ====
section
/-! DEFINITION. Machine/Buffer.lean: the consumer's operations `POP`, `LEN`, `READ_OVF` (42_token_fifo.md) and the four rows of format
`TOKEN`, each of which names the token of a cell byte (R57) and writes nothing (log 7). -/

namespace Sys2Proof.Machine

/-- `POP` (R131, R132): the oldest token removed and returned, or none returned and nothing changed. -/
def execPop (s : State) : Host.Outcome State Fault Refusal := .next (returning (fifoDrop s) (.popped s.fifo.head?))

/-- `LEN` (R133). -/
def execLen (s : State) : Host.Outcome State Fault Refusal := .next (returning s (.length (fifoLen s)))

/-- `READ_OVF` (R134): not cleared. -/
def execReadOvf (s : State) : Host.Outcome State Fault Refusal := .next (returning s (.overflows s.ovfCount))

/-- `TOKEN.SYNCA` (R57): the cell `'A'`. -/
def execTokenSynca (s : State) : Host.Outcome State Fault Refusal := .next (returning s (.token .syncA))

/-- `TOKEN.SYNCB` (R57): the cell `'B'`. -/
def execTokenSyncb (s : State) : Host.Outcome State Fault Refusal := .next (returning s (.token .syncB))

/-- `TOKEN.BIT0` (R57): the cell `'0'`. -/
def execTokenBit0 (s : State) : Host.Outcome State Fault Refusal := .next (returning s (.token (.bit false)))

/-- `TOKEN.BIT1` (R57): the cell `'1'`. -/
def execTokenBit1 (s : State) : Host.Outcome State Fault Refusal := .next (returning s (.token (.bit true)))

end Sys2Proof.Machine
end

