-- ==== Sys2Proof/Machine/HostSide.lean ====
section
/-! DEFINITION. Machine/HostSide.lean: the host's Command Parser (row `PARSE_TOKEN`, R181 to R186) and Command Text Codec (row `LINE`,
R190 to R192). They read and write no state of the block (44_host_parser.md). -/

namespace Sys2Proof.Machine

/-- The parser mode a sync token starts, with no bits (R181). -/
def parserStart (mode : ParserMode) : Parser := { mode := mode, bits := [] }

/-- A frame in progress is incomplete (R203): `0 <= len(p_bits) < n` with `p_mode != none`. -/
def frameInProgress (p : Parser) : Bool := p.mode != .none && decide (p.bits.length < frameLength p.mode)

/-- The decode of a complete frame by its mode (R184 to R186). -/
def decodeFrame : ParserMode → List Bool → Option Command
  | .none, _ => none
  | .a, bits => decodeModern32 bits
  | .b, bits => decodeLegacy12 bits

/-- A bit token (R181, R183): skipped with no frame in progress; otherwise appended, and the frame decoded when its length is reached.
A frame that fails its marker check yields no command and is an `IncompleteFrame` (R184, R203). -/
def parseBit (b : Bool) (s : State) : State :=
  match s.parser.mode with
  | .none => returning s (.command none)
  | mode =>
    let bits := s.parser.bits ++ [b]
    if bits.length = frameLength mode then
      setOut (setParser s {}) { ret := .command (decodeFrame mode bits), incompleteFrame := (decodeFrame mode bits).isNone }
    else returning (setParser s { mode := mode, bits := bits }) (.command none)

/-- A sync token (R181, R182): a new candidate frame, whatever was in progress. -/
def parseSync (mode : ParserMode) (s : State) : State :=
  setOut (setParser s (parserStart mode)) { ret := .command none, incompleteFrame := frameInProgress s.parser }

/-- `PARSE_TOKEN` (R181): `parse_token(t)`. -/
def execParseToken (t : Token) (s : State) : Host.Outcome State Fault Refusal :=
  match t with
  | .syncA => .next (parseSync .a s)
  | .syncB => .next (parseSync .b s)
  | .bit b => .next (parseBit b s)

/-- `LINE` (R190 to R192): a line parsed, `MalformedText` if it fails (R205), or a command printed. -/
def execLine (op : LineOp) (s : State) : Host.Outcome State Fault Refusal :=
  match op with
  | .parse chars =>
    .next (setOut s { ret := .command (parseLine chars), malformedText := (parseLine chars).isNone })
  | .print c => .next (returning s (.text (printLine c)))

end Sys2Proof.Machine
end

