-- ==== Sys2Proof/Machine/Magnitude.lean ====
section
/-! DEFINITION. Machine/Magnitude.lean: the eight rows of format `PULSE.MAG`. A row classifies a pulse whose magnitude fits its pattern:
it returns "sign(d) * magnitude; 0 is Invalid" and writes nothing, as `classify` is pure (R80, R84; log 7). -/

namespace Sys2Proof.Machine

/-- A row's magnitude with the pulse's polarity, returned (the table's "sign(d) * magnitude"). -/
def rowCategory (s : State) (level : Level) (m : Nat) : State := returning s (.category (signedCategory level m))

/-- `MAG.ZERO` (R81): `classify(0) = Invalid`. -/
def execMagZero (s : State) : Host.Outcome State Fault Refusal := .next (rowCategory s .high 0)

/-- `MAG.M1` (R80): 1 to 511; with all `d` bits 0 the row before it, `MAG.ZERO`, is the one that applies (R72). -/
def execMagM1 (level : Level) (low : BitVec 9) (s : State) : Host.Outcome State Fault Refusal :=
  .next (rowCategory s level (if low = 0 then 0 else 1))

/-- `MAG.M2.LOW` (R80): 512 to 1023. -/
def execMagM2Low (level : Level) (_low : BitVec 9) (s : State) : Host.Outcome State Fault Refusal :=
  .next (rowCategory s level 2)

/-- `MAG.M2.HIGH` (R80): 1024 to 2047. -/
def execMagM2High (level : Level) (_low : BitVec 10) (s : State) : Host.Outcome State Fault Refusal :=
  .next (rowCategory s level 2)

/-- `MAG.M3` (R80): 2048 to 4095. -/
def execMagM3 (level : Level) (_low : BitVec 11) (s : State) : Host.Outcome State Fault Refusal :=
  .next (rowCategory s level 3)

/-- `MAG.M4` (R80): 4096 to 8191. -/
def execMagM4 (level : Level) (_low : BitVec 12) (s : State) : Host.Outcome State Fault Refusal :=
  .next (rowCategory s level 4)

/-- `MAG.M5` (R80): 8192 to 16383. -/
def execMagM5 (level : Level) (_low : BitVec 13) (s : State) : Host.Outcome State Fault Refusal :=
  .next (rowCategory s level 5)

/-- `MAG.INV.LONG` (R82): 16384 and every larger magnitude. -/
def execMagInvLong (level : Level) (_p : Nat) (s : State) : Host.Outcome State Fault Refusal :=
  .next (rowCategory s level 0)

end Sys2Proof.Machine
end

