-- ==== Sys2Proof/Machine/Receive.lean ====
section
/-! DEFINITION. Machine/Receive.lean: `PULSE` (R90), the 19 rows of format `RXSTEP` (R91 to R110) and `PULSE.PUSH_OR_DROP` (R114). A
row's operand is the part of its key outside the table's mask; the machine's own registers decide whether the row applies (log 6). -/

namespace Sys2Proof.Machine

/-- `PULSE(d)` (R90): classify, the transition, push or drop, the outputs. -/
def execPulse (d : Int) (s : State) : Host.Outcome State Fault Refusal := .next (rxStep (classify d) (.duration d) s)

/-! ### Sync detection -/

/-- `UNKNOWN.L5` (R91). -/
def execUnknownL5 (_pend : Pending) (s : State) : Host.Outcome State Fault Refusal :=
  .next (rxRow (s.rxState == .unknown) .l5 (.go .syncA1 none) s)

/-- `SYNCA1.H1` (R92). -/
def execSynca1H1 (_pend : Pending) (s : State) : Host.Outcome State Fault Refusal :=
  .next (rxRow (s.rxState == .syncA1) .h1 (.go .syncA2 none) s)

/-- `SYNCA2.L3` (R93). -/
def execSynca2L3 (_pend : Pending) (s : State) : Host.Outcome State Fault Refusal :=
  .next (rxRow (s.rxState == .syncA2) .l3 (.go .syncA3 none) s)

/-- `SYNCA2.L2` (R94): emits `SyncB`. -/
def execSynca2L2 (_pend : Pending) (s : State) : Host.Outcome State Fault Refusal :=
  .next (rxRow (s.rxState == .syncA2) .l2 (.emit .bitB2 .syncB) s)

/-- `SYNCA3.H1` (R95): emits `SyncA`. -/
def execSynca3H1 (_pend : Pending) (s : State) : Host.Outcome State Fault Refusal :=
  .next (rxRow (s.rxState == .syncA3) .h1 (.emit .bitA0 .syncA) s)

/-! ### Format A bit assembly -/

/-- `BITA0.L2` (R96): records 1. -/
def execBita0L2 (_pend : Pending) (s : State) : Host.Outcome State Fault Refusal :=
  .next (rxRow (s.rxState == .bitA0) .l2 (.go .bitA1 (some true)) s)

/-- `BITA0.L1` (R97): records 0. -/
def execBita0L1 (_pend : Pending) (s : State) : Host.Outcome State Fault Refusal :=
  .next (rxRow (s.rxState == .bitA0) .l1 (.go .bitA1 (some false)) s)

/-- `BITA1.H1` (R98): pending kept. -/
def execBita1H1 (_pend : Pending) (s : State) : Host.Outcome State Fault Refusal :=
  .next (rxRow (s.rxState == .bitA1) .h1 (.go .bitA2 s.pending) s)

/-- `BITA2.L1.P1` (R99). -/
def execBita2L1P1 (s : State) : Host.Outcome State Fault Refusal :=
  .next (rxRow (s.rxState == .bitA2 && s.pending == some true) .l1 (.go .bitA3 (some true)) s)

/-- `BITA2.L2.P0` (R100). -/
def execBita2L2P0 (s : State) : Host.Outcome State Fault Refusal :=
  .next (rxRow (s.rxState == .bitA2 && s.pending == some false) .l2 (.go .bitA3 (some false)) s)

/-- `BITA3.H1` (R101): emits the pending bit. -/
def execBita3H1 (b : Bool) (s : State) : Host.Outcome State Fault Refusal :=
  .next (rxRow (s.rxState == .bitA3 && s.pending == some b) .h1 (.emit .bitA0 (.bit b)) s)

/-! ### Format B bit assembly -/

/-- `BITB0.H1` (R102). -/
def execBitb0H1 (_pend : Pending) (s : State) : Host.Outcome State Fault Refusal :=
  .next (rxRow (s.rxState == .bitB0) .h1 (.go .bitB1 none) s)

/-- `BITB1.L2` (R103). -/
def execBitb1L2 (_pend : Pending) (s : State) : Host.Outcome State Fault Refusal :=
  .next (rxRow (s.rxState == .bitB1) .l2 (.go .bitB2 none) s)

/-- `BITB2.H2` (R104): records 1. -/
def execBitb2H2 (_pend : Pending) (s : State) : Host.Outcome State Fault Refusal :=
  .next (rxRow (s.rxState == .bitB2) .h2 (.go .bitB3 (some true)) s)

/-- `BITB2.H1` (R105): records 0. -/
def execBitb2H1 (_pend : Pending) (s : State) : Host.Outcome State Fault Refusal :=
  .next (rxRow (s.rxState == .bitB2) .h1 (.go .bitB3 (some false)) s)

/-- `BITB3.L1.P1` (R106): emits 1. -/
def execBitb3L1P1 (s : State) : Host.Outcome State Fault Refusal :=
  .next (rxRow (s.rxState == .bitB3 && s.pending == some true) .l1 (.emit .bitB0 (.bit true)) s)

/-- `BITB3.L2.P0` (R107): emits 0. -/
def execBitb3L2P0 (s : State) : Host.Outcome State Fault Refusal :=
  .next (rxRow (s.rxState == .bitB3 && s.pending == some false) .l2 (.emit .bitB0 (.bit false)) s)

/-! ### The default -/

/-- One of R92 to R107 applies to the machine's own state and pending register with category `c` (R66). -/
def transitionDefined (s : State) (c : Category) : Bool := listedPair s.rxState c s.pending

/-- `UNKNOWN.OTHER` (R110): in `Unknown`, any category but `L5`. -/
def execUnknownOther (c : Category) (_pend : Pending) (s : State) : Host.Outcome State Fault Refusal :=
  .next (rxRow (s.rxState == .unknown && c != .l5) c .mismatch s)

/-- `DEFAULT` (R109, R108): outside `Unknown`, a category with no defined transition. -/
def execDflt (_st : RxState) (c : Category) (_pend : Pending) (s : State) : Host.Outcome State Fault Refusal :=
  .next (rxRow (s.rxState != .unknown && !transitionDefined s c) c .mismatch s)

/-! ### Push or drop -/

/-- `PULSE.PUSH_OR_DROP` (R114) of one of the five emitting transitions' results: the token pushed and the transition's target, or, the
buffer being full, the drop with `Overflow` and `frame_end`, which "a dropped token always gives" (log 9). -/
def execPulsePushOrDrop (e : Emission) (s : State) : Host.Outcome State Fault Refusal :=
  let t := (emissionResult e).1
  .next
    (setOut (pushOrDrop s t (emissionResult e).2 none)
      (if fifoFull s then { overflow := some t, frameEnd := true } else { pushed := some t }))

end Sys2Proof.Machine
end

