-- ==== Sys2Proof/Machine/Reset.lean ====
section
/-! DEFINITION. Machine/Reset.lean: `RESET` (R230 of 70_reset_and_hazards.md). -/

namespace Sys2Proof.Machine

/-- `RESET` (R230): every register its reset value of R35; no event and no `frame_end`. What is no register of the block stays: the
output trace (log 5), the host's parser (R30(d)), the parameters, the calls still to be made. -/
def execReset (s : State) : Host.Outcome State Fault Refusal :=
  .next
    { s with
      rxState := .unknown
      pending := none
      fifo := []
      ovfCount := 0
      pin := .low
      txQueue := []
      txBusy := false
      out := {} }

end Sys2Proof.Machine
end

