-- ==== Sys2Proof/Machine/Waveform.lean ====
section
/-! DEFINITION. Machine/Waveform.lean: the eight symbols of the transmitter (R152 to R159), a repetition and a whole waveform (R163,
R164), how a receiver sees segments (R63, R240), and the split of a long wait (R170). -/

namespace Sys2Proof.Machine

/-- A HIGH segment. -/
def hi (t : Nat) : Segment := { level := .high, duration := t }

/-- A LOW segment. -/
def lo (t : Nat) : Segment := { level := .low, duration := t }

/-- `SYNC12` (R152). -/
def sync12 : List Segment := [hi Config.l12Short, lo Config.l12SyncLow]

/-- `BIT12_1` (R153) and `BIT12_0` (R154). -/
def bit12 (b : Bool) : List Segment :=
  if b then [hi Config.l12Short, lo Config.l12Long, hi Config.l12Long, lo Config.l12Short]
  else [hi Config.l12Short, lo Config.l12Long, hi Config.l12Short, lo Config.l12Long]

/-- `SYNC32` (R155). -/
def sync32 : List Segment := [lo Config.m32SyncLow1, hi Config.m32High, lo Config.m32SyncLow2, hi Config.m32High]

/-- `BIT32_1` (R156) and `BIT32_0` (R157). -/
def bit32 (b : Bool) : List Segment :=
  if b then [lo Config.m32LongLow, hi Config.m32High, lo Config.m32ShortLow, hi Config.m32High]
  else [lo Config.m32ShortLow, hi Config.m32High, lo Config.m32LongLow, hi Config.m32High]

/-- The segments of `TERM12` (R158). -/
def term12 : List Segment := [hi Config.l12Short]

/-- The segments of `TERM32` (R159): none. -/
def term32 : List Segment := []

/-- The final level of both terminators (R158, R159). -/
def finalLevel : Level := .low

/-- The sync symbol of a format (R163). -/
def syncSymbol : Version → List Segment
  | .legacy12 => sync12
  | .modern32 => sync32

/-- The bit symbol of a format (R163). -/
def bitSymbol : Version → Bool → List Segment
  | .legacy12 => bit12
  | .modern32 => bit32

/-- The terminator's segments of a format (R164). -/
def termSymbol : Version → List Segment
  | .legacy12 => term12
  | .modern32 => term32

/-- `rep(cmd)` (R163): the sync symbol, then the bit symbols in frame order. -/
def rep (c : Command) : List Segment := syncSymbol c.version ++ (frameBits c).flatMap (bitSymbol c.version)

/-- The segments of `waveform(cmd, repeats)` (R164): the repetitions, then the terminator once. -/
def waveform (c : Command) (repeats : Nat) : List Segment :=
  (List.replicate repeats (rep c)).flatten ++ termSymbol c.version

/-- What an accepted `TRANSMIT` loads (R160): the segments and the final-level marker. -/
def txLoad (c : Command) (repeats : Nat) : List TxEntry := (waveform c repeats).map .seg ++ [.final finalLevel]

/-- The time a sequence of segments takes, in microseconds (R163, R164). -/
def totalDuration (segs : List Segment) : Nat := (segs.map Segment.duration).sum

/-- A segment as a pulse (R63), "provided its neighbours have the other level". -/
def segPulse (s : Segment) : Int := signedDuration s.level s.duration

/-- Segments as a receiver measures them, edge to edge: neighbours of one level are one segment on the wire (R240). -/
def mergeLevels : List Segment → List Segment
  | [] => []
  | s :: rest =>
    match mergeLevels rest with
    | [] => [s]
    | t :: more =>
      if s.level = t.level then { level := s.level, duration := s.duration + t.duration } :: more else s :: t :: more

/-- The pulses of a segment sequence on the wire (R240, R15). -/
def wirePulses (segs : List Segment) : List Int := (mergeLevels segs).map segPulse

/-- Every two neighbouring segments have opposite levels (R165). -/
def alternating : List Segment → Bool
  | [] => true
  | [_] => true
  | s :: t :: rest => s.level != t.level && alternating (t :: rest)

/-- A wait of `t` carried out as waits no longer than `maxWait` (R170): whole chunks, then the rest. With `fuel` at least `t` and
`maxWait` positive it is a split of the whole of `t`. No step reads it: the waveform is the same whatever the split is. -/
def splitWait (maxWait : Nat) : Nat → Nat → List Nat
  | 0, t => [t]
  | fuel + 1, t => if t ≤ maxWait then [t] else maxWait :: splitWait maxWait fuel (t - maxWait)

end Sys2Proof.Machine
end

