-- ==== Sys2Proof/Machine/Transmit.lean ====
section
/-! DEFINITION. Machine/Transmit.lean: `TRANSMIT` (R160 to R162, R168), `TXSTEP` (R166, R167), the frame rows (R150, R151) and the
symbol rows (R152 to R159). A frame or symbol row names a value and writes nothing (log 7). -/

namespace Sys2Proof.Machine

/-! ### TRANSMIT -/

/-- A refused `TRANSMIT` (R161, R168): no state changes, and "the refusal is silent" (R247), so nothing is returned or signalled. -/
def txRefuse (s : State) : State := setOut s {}

/-- An accepted `TRANSMIT` (R160): the whole waveform and the marker loaded, busy; nothing is returned "beyond success". -/
def txAccept (c : Command) (repeats : Nat) (s : State) : State := setOut (setTx s (txLoad c repeats) true) {}

/-- `TRANSMIT(cmd, repeats)` with a version code (R160): busy is tested first, then the version. -/
def txTransmit (v : BitVec 4) (f : CmdFields) (repeats : Nat) (s : State) : State :=
  if s.txBusy then txRefuse s
  else
    match Version.ofCode v with
    | some version => txAccept { version := version, fields := f } repeats s
    | none => txRefuse s

/-- `TRANSMIT.LEGACY12` (R160). -/
def execTransmitLegacy12 (f : CmdFields) (repeats : Nat) (s : State) : Host.Outcome State Fault Refusal :=
  .next (if s.txBusy then txRefuse s else txAccept { version := .legacy12, fields := f } repeats s)

/-- `TRANSMIT.MODERN32` (R160). -/
def execTransmitModern32 (f : CmdFields) (repeats : Nat) (s : State) : Host.Outcome State Fault Refusal :=
  .next (if s.txBusy then txRefuse s else txAccept { version := .modern32, fields := f } repeats s)

/-- `TRANSMIT.BADVERSION` (R161). -/
def execTransmitBadversion (v : BitVec 4) (f : CmdFields) (repeats : Nat) (s : State) : Host.Outcome State Fault Refusal :=
  .next (txTransmit v f repeats s)

/-- `TRANSMIT.BUSY` (R168): refused, whatever the operands; if the block is not busy, the row of the version applies (log 6). -/
def execTransmitBusy (v : BitVec 4) (f : CmdFields) (repeats : Nat) (s : State) : Host.Outcome State Fault Refusal :=
  .next (if s.txBusy then txRefuse s else txTransmit v f repeats s)

/-! ### TXSTEP -/

/-- The next segment put out (R166). -/
def txPutSegment (s : State) (seg : Segment) (rest : List TxEntry) : State := setOut (setTx (putOut s seg) rest s.txBusy) {}

/-- The waveform ended (R167). -/
def txFinish (s : State) (level : Level) : State := setOut (setTx (setPin s level) [] false) {}

/-- `TXSTEP` (R166, R167): "enabled only while `tx_busy = 1`"; the head of the queue decides which of the two rules applies. -/
def txAdvance (s : State) : Host.Outcome State Fault Refusal :=
  if s.txBusy then
    match s.txQueue with
    | .seg g :: rest => .next (txPutSegment s g rest)
    | [.final level] => .next (txFinish s level)
    | _ => .fault .txQueueMalformed
  else .fault .txIdle

/-- `TXSTEP` (R166). -/
def execTxstep (s : State) : Host.Outcome State Fault Refusal := txAdvance s

/-- `TXSTEP.FINAL` (R167). -/
def execTxstepFinal (s : State) : Host.Outcome State Fault Refusal := txAdvance s

/-! ### Frames and symbols -/

/-- `FRAME12` (R61, R150): the 12 bits in time order. -/
def execFrame12 (device : BitVec 8) (state : Bool) (s : State) : Host.Outcome State Fault Refusal :=
  .next (returning s (.frame (frame12Bits { device := device.setWidth 24, group := false, channel := 0, state := state })))

/-- `FRAME32` (R62, R151): the 32 bits in time order. -/
def execFrame32 (f : CmdFields) (s : State) : Host.Outcome State Fault Refusal := .next (returning s (.frame (frame32Bits f)))

/-- `TX.SYNC12` (R152). -/
def execTxSync12 (s : State) : Host.Outcome State Fault Refusal := .next (returning s (.symbol sync12 none))

/-- `TX.BIT12_1` (R153). -/
def execTxBit12One (s : State) : Host.Outcome State Fault Refusal := .next (returning s (.symbol (bit12 true) none))

/-- `TX.BIT12_0` (R154). -/
def execTxBit12Zero (s : State) : Host.Outcome State Fault Refusal := .next (returning s (.symbol (bit12 false) none))

/-- `TX.SYNC32` (R155). -/
def execTxSync32 (s : State) : Host.Outcome State Fault Refusal := .next (returning s (.symbol sync32 none))

/-- `TX.BIT32_1` (R156). -/
def execTxBit32One (s : State) : Host.Outcome State Fault Refusal := .next (returning s (.symbol (bit32 true) none))

/-- `TX.BIT32_0` (R157). -/
def execTxBit32Zero (s : State) : Host.Outcome State Fault Refusal := .next (returning s (.symbol (bit32 false) none))

/-- `TX.TERM12` (R158): one segment, then the final level. -/
def execTxTerm12 (s : State) : Host.Outcome State Fault Refusal := .next (returning s (.symbol term12 (some finalLevel)))

/-- `TX.TERM32` (R159): no segment, the final level. -/
def execTxTerm32 (s : State) : Host.Outcome State Fault Refusal := .next (returning s (.symbol term32 (some finalLevel)))

end Sys2Proof.Machine
end

