-- ==== Sys2Proof/Machine/Dispatch.lean ====
section
/-! DEFINITION. Machine/Dispatch.lean: `exec`, one arm per constructor of `Instr`, each one call of its meaning. -/

namespace Sys2Proof.Machine

def exec (i : Instr) (s : State) : Host.Outcome State Fault Refusal :=
  match i with
  | .magZero => Sys2Proof.Machine.execMagZero s
  | .magM1 level low => Sys2Proof.Machine.execMagM1 level low s
  | .magM2Low level low => Sys2Proof.Machine.execMagM2Low level low s
  | .magM2High level low => Sys2Proof.Machine.execMagM2High level low s
  | .magM3 level low => Sys2Proof.Machine.execMagM3 level low s
  | .magM4 level low => Sys2Proof.Machine.execMagM4 level low s
  | .magM5 level low => Sys2Proof.Machine.execMagM5 level low s
  | .magInvLong level p => Sys2Proof.Machine.execMagInvLong level p s
  | .unknownL5 pend => Sys2Proof.Machine.execUnknownL5 pend s
  | .synca1H1 pend => Sys2Proof.Machine.execSynca1H1 pend s
  | .synca2L3 pend => Sys2Proof.Machine.execSynca2L3 pend s
  | .synca2L2 pend => Sys2Proof.Machine.execSynca2L2 pend s
  | .synca3H1 pend => Sys2Proof.Machine.execSynca3H1 pend s
  | .bita0L2 pend => Sys2Proof.Machine.execBita0L2 pend s
  | .bita0L1 pend => Sys2Proof.Machine.execBita0L1 pend s
  | .bita1H1 pend => Sys2Proof.Machine.execBita1H1 pend s
  | .bita2L1P1 => Sys2Proof.Machine.execBita2L1P1 s
  | .bita2L2P0 => Sys2Proof.Machine.execBita2L2P0 s
  | .bita3H1 b => Sys2Proof.Machine.execBita3H1 b s
  | .bitb0H1 pend => Sys2Proof.Machine.execBitb0H1 pend s
  | .bitb1L2 pend => Sys2Proof.Machine.execBitb1L2 pend s
  | .bitb2H2 pend => Sys2Proof.Machine.execBitb2H2 pend s
  | .bitb2H1 pend => Sys2Proof.Machine.execBitb2H1 pend s
  | .bitb3L1P1 => Sys2Proof.Machine.execBitb3L1P1 s
  | .bitb3L2P0 => Sys2Proof.Machine.execBitb3L2P0 s
  | .unknownOther c pend => Sys2Proof.Machine.execUnknownOther c pend s
  | .dflt st c pend => Sys2Proof.Machine.execDflt st c pend s
  | .pulse d => Sys2Proof.Machine.execPulse d s
  | .pulsePushOrDrop e => Sys2Proof.Machine.execPulsePushOrDrop e s
  | .tokenSynca => Sys2Proof.Machine.execTokenSynca s
  | .tokenSyncb => Sys2Proof.Machine.execTokenSyncb s
  | .tokenBit0 => Sys2Proof.Machine.execTokenBit0 s
  | .tokenBit1 => Sys2Proof.Machine.execTokenBit1 s
  | .pop => Sys2Proof.Machine.execPop s
  | .len => Sys2Proof.Machine.execLen s
  | .readOvf => Sys2Proof.Machine.execReadOvf s
  | .transmitLegacy12 f repeats => Sys2Proof.Machine.execTransmitLegacy12 f repeats s
  | .transmitModern32 f repeats => Sys2Proof.Machine.execTransmitModern32 f repeats s
  | .transmitBadversion v f repeats => Sys2Proof.Machine.execTransmitBadversion v f repeats s
  | .transmitBusy v f repeats => Sys2Proof.Machine.execTransmitBusy v f repeats s
  | .frame12 device state => Sys2Proof.Machine.execFrame12 device state s
  | .frame32 f => Sys2Proof.Machine.execFrame32 f s
  | .txSync12 => Sys2Proof.Machine.execTxSync12 s
  | .txBit12One => Sys2Proof.Machine.execTxBit12One s
  | .txBit12Zero => Sys2Proof.Machine.execTxBit12Zero s
  | .txSync32 => Sys2Proof.Machine.execTxSync32 s
  | .txBit32One => Sys2Proof.Machine.execTxBit32One s
  | .txBit32Zero => Sys2Proof.Machine.execTxBit32Zero s
  | .txTerm12 => Sys2Proof.Machine.execTxTerm12 s
  | .txTerm32 => Sys2Proof.Machine.execTxTerm32 s
  | .txstep => Sys2Proof.Machine.execTxstep s
  | .txstepFinal => Sys2Proof.Machine.execTxstepFinal s
  | .reset => Sys2Proof.Machine.execReset s
  | .parseToken t => Sys2Proof.Machine.execParseToken t s
  | .line op => Sys2Proof.Machine.execLine op s

end Sys2Proof.Machine
end

