-- ==== Sys2Proof/Machine/Fetch.lean ====
section
/-! DEFINITION. Machine/Fetch.lean: where a step takes its operation from (log 1, log 11), and how a word of the opcode table is placed
there (log 20). -/

namespace Sys2Proof.Machine

/-- The call the next step makes, and the state it is made in: the oldest call waiting; with none waiting and a waveform in progress, a
`TXSTEP`, since "a run with `tx_busy = 1` is not over: `TXSTEP`s remain" (R234, R167); with none waiting and the transmitter idle, none. -/
def fetch (s : State) : Option (Call × State) :=
  match s.input with
  | c :: rest => some (c, { s with input := rest })
  | [] => if s.txBusy then some (.txstep, s) else none

/-- Nothing happens: "between steps it simply holds its state" (R217); the strobes of an earlier step are not held (R26). -/
def idle (s : State) : State := { s with out := {} }

/-- The registers that select a receive row (R66): for a receive key, the machine's own state and pending register are the key's. -/
def selectRow (s : State) (c : Call) : State :=
  match c with
  | .rxstep key =>
    match RxState.ofCode (key.extractLsb' 6 4), pendingOfCode (key.extractLsb' 0 2) with
    | some st, some pend => { s with rxState := st, pending := pend }
    | _, _ => s
  | _ => s

/-- A word of the opcode table, placed as the next call, with the registers that select its row. -/
def placeWord (s : State) (nbits w : Nat) : State :=
  match tableCall nbits w with
  | some c => { selectRow s c with input := c :: s.input }
  | none => s

end Sys2Proof.Machine
end

