-- ==== Sys2Proof/Machine/Step.lean ====
section
/-! DEFINITION. Machine/Step.lean: one step of the machine, and where a word of the opcode table is put to run next. -/

namespace Sys2Proof.Machine

/-- One atomic step (R17): the next call is decoded and the row it selects runs in the state the call is made in. -/
def step (s : State) : Host.Outcome State Fault Refusal :=
  match fetch s with
  | none => .next (idle s)
  | some (c, s1) =>
    match decode (decodeCtx s1) c with
    | .ok i => exec i s1
    | .error e => .refused (.undecodable e)

/-- The state with a word of the opcode table as its next call (log 20). -/
def State.withFetchWord (s : State) (nbits w : Nat) : State := placeWord s nbits w

end Sys2Proof.Machine
end

