-- ==== Sys2Proof/Safety.lean ====
section
/-! DEFINITION. Safety.lean: what a safe state is (the invariants of R22, R23, R25, R28, R29), who owns what (R18, R31, R212), and runs of
operations (R234), in the terms the statements use. -/

/-- A command as it stands on the wire (R162): for `Legacy12` the fields its frame does not carry are zero. -/
def Sys2Proof.Command.onWire (c : Sys2Proof.Command) : Sys2Proof.Command :=
  match c.version with
  | .modern32 => c
  | .legacy12 =>
    { version := .legacy12
      fields := { device := c.fields.device &&& 0xFF, group := false, channel := 0, state := c.fields.state } }

namespace Sys2Proof.Machine

/-! ### Invariants -/

/-- A bit is in progress (R22). -/
def bitInProgress : RxState → Bool
  | .bitA1 | .bitA2 | .bitA3 | .bitB3 => true
  | _ => false

/-- The shape of `tx_queue` while busy (R28, R160): segments of positive duration (R63), then the final-level marker, `LOW`. -/
def txQueueWf : List TxEntry → Bool
  | [] => false
  | [.final level] => level == .low
  | .final _ :: _ :: _ => false
  | .seg g :: rest => decide (0 < g.duration) && txQueueWf rest

/-- The parser holds fewer bits than a frame has, and none with no frame in progress (R181). -/
def parserWf (p : Parser) : Bool :=
  match p.mode with
  | .none => p.bits.isEmpty
  | mode => decide (p.bits.length < frameLength mode)

/-- The receive side's invariant: R22, the buffer's bound (R23, R135(a)), the counter's width (R25). -/
def RxInv (s : State) : Prop :=
  (s.pending.isSome = bitInProgress s.rxState) ∧ s.fifo.length ≤ s.params.tokenCap ∧ s.ovfCount ≤ s.params.ovfMax

/-- The transmit side's invariant: while busy a waveform is left (R28, R29), while idle nothing is left and the pin is `LOW` (R167, R35). -/
def TxInv (s : State) : Prop :=
  if s.txBusy then txQueueWf s.txQueue = true else s.txQueue = [] ∧ s.pin = .low

/-- The machine's invariant. -/
def Inv (s : State) : Prop := RxInv s ∧ TxInv s ∧ parserWf s.parser = true

/-! ### Ownership -/

/-- The four agents of R18, and the host's software, whose functions are no operation of the block (R4). -/
inductive Agent where
  | rxp
  | cons
  | txa
  | host
  | software
  deriving DecidableEq, Repr

/-- The agent that executes a row's operation (R18); none for the rows that only name a value (formats `PULSE.MAG`, `TOKEN`,
`FRAME12`, `FRAME32`, `SEG`; log 7). -/
def agentOf : Instr → Option Agent
  | .magZero | .magM1 _ _ | .magM2Low _ _ | .magM2High _ _ | .magM3 _ _ | .magM4 _ _ | .magM5 _ _ | .magInvLong _ _ => none
  | .unknownL5 _ | .synca1H1 _ | .synca2L3 _ | .synca2L2 _ | .synca3H1 _ => some .rxp
  | .bita0L2 _ | .bita0L1 _ | .bita1H1 _ | .bita2L1P1 | .bita2L2P0 | .bita3H1 _ => some .rxp
  | .bitb0H1 _ | .bitb1L2 _ | .bitb2H2 _ | .bitb2H1 _ | .bitb3L1P1 | .bitb3L2P0 => some .rxp
  | .unknownOther _ _ | .dflt _ _ _ | .pulse _ | .pulsePushOrDrop _ => some .rxp
  | .tokenSynca | .tokenSyncb | .tokenBit0 | .tokenBit1 => none
  | .pop | .len | .readOvf => some .cons
  | .transmitLegacy12 _ _ | .transmitModern32 _ _ | .transmitBadversion _ _ _ | .transmitBusy _ _ _ => some .host
  | .frame12 _ _ | .frame32 _ => none
  | .txSync12 | .txBit12One | .txBit12Zero | .txSync32 | .txBit32One | .txBit32Zero | .txTerm12 | .txTerm32 => none
  | .txstep | .txstepFinal => some .txa
  | .reset => some .host
  | .parseToken _ | .line _ => some .software

/-- The category a receive row stands for (format `RXSTEP`); none for any other row. -/
def rowCategoryOf : Instr → Option Category
  | .unknownL5 _ => some .l5
  | .synca1H1 _ | .synca3H1 _ | .bita1H1 _ | .bita3H1 _ | .bitb0H1 _ | .bitb2H1 _ => some .h1
  | .synca2L3 _ => some .l3
  | .synca2L2 _ | .bita0L2 _ | .bita2L2P0 | .bitb1L2 _ | .bitb3L2P0 => some .l2
  | .bita0L1 _ | .bita2L1P1 | .bitb3L1P1 => some .l1
  | .bitb2H2 _ => some .h2
  | .unknownOther c _ => some c
  | .dflt _ c _ => some c
  | _ => none

/-- The registers the receive pair shares (R54): `rx_state`, `pending`, `fifo`, `ovf_count`. -/
def sameRx (s t : State) : Prop :=
  s.rxState = t.rxState ∧ s.pending = t.pending ∧ s.fifo = t.fifo ∧ s.ovfCount = t.ovfCount

/-- The registers the transmit pair shares (R54), with the trace they put out: `pin`, `tx_queue`, `tx_busy`. -/
def sameTx (s t : State) : Prop := s.pin = t.pin ∧ s.txQueue = t.txQueue ∧ s.txBusy = t.txBusy ∧ s.trace = t.trace

/-- What no operation of the block writes: the host's parser, the parameters, the calls still to be made. -/
def sameRest (s t : State) : Prop := s.parser = t.parser ∧ s.params = t.params ∧ s.input = t.input

/-! ### Runs -/

/-- A finite sequence of operations applied to a state (R234): the end state and each step's outputs in order; none if a step stops. -/
def run : List Instr → State → Option (State × List Outputs)
  | [], s => some (s, [])
  | i :: is, s =>
    match exec i s with
    | .next t =>
      match run is t with
      | some (u, os) => some (u, t.out :: os)
      | none => none
    | _ => none

/-- The pulses a list of segments is fed as, each segment its own pulse (95_test_vectors.md, "Test convention"). -/
def pulsesOf (segs : List Segment) : List Instr := segs.map fun g => .pulse (segPulse g)

/-- The tokens pushed in a run, in step order (R42). -/
def pushes (os : List Outputs) : List Token := os.filterMap Outputs.pushed

/-- The token a step's `POP` returned, if any. -/
def poppedToken (o : Outputs) : Option Token :=
  match o.ret with
  | .popped t => t
  | _ => none

/-- The tokens `POP` returned in a run, in step order (R42). -/
def pops (os : List Outputs) : List Token := os.filterMap poppedToken

/-- The number of tokens dropped in a run (R135(d)). -/
def drops (os : List Outputs) : Nat := (os.filter fun o => o.overflow.isSome).length

/-- The number of steps of a run that signalled `frame_end`. -/
def frameEnds (os : List Outputs) : Nat := (os.filter Outputs.frameEnd).length

/-- The command a step yielded, if any (R180). -/
def yieldedCommand (o : Outputs) : Option Command :=
  match o.ret with
  | .command c => c
  | _ => none

/-- The commands yielded in a run, in step order (R180). -/
def yields (os : List Outputs) : List Command := os.filterMap yieldedCommand

/-- The tokens of one frame as the receive side pushes them (R118): the format's sync token, then the frame's bits. -/
def frameTokens (c : Command) : List Token := syncToken c.version :: (frameBits c).map .bit

/-- The state the receive side is left in after a whole frame (R118): `BitB0` or `BitA0`. -/
def afterFrame : Version → RxState
  | .legacy12 => .bitB0
  | .modern32 => .bitA0

/-- A run is over (R234): no call is left and `tx_busy = 0`. -/
def runOver (s : State) : Prop := s.input = [] ∧ s.txBusy = false

/-! ### What the rules say, written out for the statements -/

/-- The end of an emitting step (R114): with room the token is pushed and the transition's target reached; with a full buffer it is
dropped and counted, and the step ends in `Unknown` with `Overflow` and `frame_end`. -/
def emitted (s : State) (t : Token) (next : RxState) : State :=
  if s.fifo.length < s.params.tokenCap then
    { s with fifo := s.fifo ++ [t], rxState := next, pending := none, out := { pushed := some t } }
  else
    { s with
      rxState := .unknown
      pending := none
      ovfCount := min (s.ovfCount + 1) (2 ^ s.params.ovfW - 1)
      out := { overflow := some t, frameEnd := true } }

/-- The end of a step that emits nothing and signals nothing (R91 to R105). -/
def moved (s : State) (next : RxState) (pend : Pending) : State := { s with rxState := next, pending := pend, out := {} }

/-- The rows of format `RXSTEP` in the table's order, each as (match, mask), transcribed from spec/opcode_table.json. -/
def rxTable : List (BitVec 10 × BitVec 10) :=
  [(0x000, 0x3FC), (0x058, 0x3FC), (0x088, 0x3FC), (0x08C, 0x3FC), (0x0D8, 0x3FC), (0x10C, 0x3FC), (0x110, 0x3FC)] ++
    [(0x158, 0x3FC), (0x193, 0x3FF), (0x18E, 0x3FF), (0x1DA, 0x3FE), (0x218, 0x3FC), (0x24C, 0x3FC)] ++
      [(0x29C, 0x3FC), (0x298, 0x3FC), (0x2D3, 0x3FF), (0x2CE, 0x3FF), (0x000, 0x3C0), (0x000, 0x000)]

/-- The place of a receive row in the table's order; none for any other row. -/
def rxTableIndex : Instr → Option Nat
  | .unknownL5 _ => some 0
  | .synca1H1 _ => some 1
  | .synca2L3 _ => some 2
  | .synca2L2 _ => some 3
  | .synca3H1 _ => some 4
  | .bita0L2 _ => some 5
  | .bita0L1 _ => some 6
  | .bita1H1 _ => some 7
  | .bita2L1P1 => some 8
  | .bita2L2P0 => some 9
  | .bita3H1 _ => some 10
  | .bitb0H1 _ => some 11
  | .bitb1L2 _ => some 12
  | .bitb2H2 _ => some 13
  | .bitb2H1 _ => some 14
  | .bitb3L1P1 => some 15
  | .bitb3L2P0 => some 16
  | .unknownOther _ _ => some 17
  | .dflt _ _ _ => some 18
  | _ => none

/-- The first row with `(key AND mask) = match` (R72). -/
def rxTableFirst (key : BitVec 10) : Option Nat := rxTable.findIdx? fun row => key &&& row.2 == row.1

/-- A character is `[0-9A-Fa-f]` (R191). -/
def isHexChar (ch : Byte) : Bool :=
  let n := ch.toNat
  (decide (0x30 ≤ n) && decide (n ≤ 0x39)) || (decide (0x41 ≤ n) && decide (n ≤ 0x46)) || (decide (0x61 ≤ n) && decide (n ≤ 0x66))

/-- A character is `0` or `1` (R191). -/
def isBitChar (ch : Byte) : Bool := ch == 0x30 || ch == 0x31

/-- The line grammar of R191, by character position: length 14, colons at 1, 8, 10, 12, hex digits at 2 to 7 and 11, `0` or `1` at 9
and 13, the version digit `1` or `2`. -/
def lineGrammar (chars : List Byte) : Bool :=
  chars.length == 14 && [1, 8, 10, 12].all (fun i => chars[i]? == some 0x3A) &&
    [2, 3, 4, 5, 6, 7, 11].all (fun i => (chars[i]?).any isHexChar) && [9, 13].all (fun i => (chars[i]?).any isBitChar) &&
      (chars[0]? == some 0x31 || chars[0]? == some 0x32)

/-- The category a pulse of each nominal segment has (R65). -/
def categories (segs : List Segment) : List Category := segs.map fun g => classify (segPulse g)

end Sys2Proof.Machine
end

