-- ==== Sys2Proof/Certificates/Slice0/Obligations.lean ====
section
/-! DEFINITION. Certificates/Slice0/Obligations.lean: the statements for the provers. Each docstring names the rules it formalises; a
statement that rests on a choice of the model names the log entry. -/

open Sys2Proof Sys2Proof.Machine

/-! ### Reset -/

/-- R230, R231, R35: `RESET` writes every register with its reset value and raises no event, whatever the state; power-on leaves the same
registers.
What is no register of the block is kept: that is the model's choice (log 5, log 22). -/
def Obligations.ResetWritesEveryRegister : Prop :=
  (∀ s : State,
    exec .reset s =
      .next
        { s with
          rxState := .unknown, pending := none, fifo := [], ovfCount := 0, pin := .low, txQueue := [], txBusy := false,
          out := {} }) ∧
  State.reset.rxState = .unknown ∧ State.reset.pending = none ∧ State.reset.fifo = [] ∧ State.reset.ovfCount = 0 ∧
  State.reset.pin = .low ∧ State.reset.txQueue = [] ∧ State.reset.txBusy = false

/-! ### The classifier -/

/-- R80, R81, R82: the buckets, with the sign reapplied. -/
def Obligations.ClassifyBuckets : Prop :=
  classify 0 = .inv ∧
    ∀ p : Nat,
      (1 ≤ p ∧ p < 512 → classify p = .h1 ∧ classify (-(p : Int)) = .l1) ∧
      (512 ≤ p ∧ p < 2048 → classify p = .h2 ∧ classify (-(p : Int)) = .l2) ∧
      (2048 ≤ p ∧ p < 4096 → classify p = .h3 ∧ classify (-(p : Int)) = .l3) ∧
      (4096 ≤ p ∧ p < 8192 → classify p = .h4 ∧ classify (-(p : Int)) = .l4) ∧
      (8192 ≤ p ∧ p < 16384 → classify p = .h5 ∧ classify (-(p : Int)) = .l5) ∧
      (16384 ≤ p → classify p = .inv ∧ classify (-(p : Int)) = .inv)

/-- R84: odd, monotone in magnitude, sign-faithful, and in range (total and pure it is as a Lean function). -/
def Obligations.ClassifyLaws : Prop :=
  (∀ d : Int, (classify (-d)).toInt = -(classify d).toInt) ∧
    (∀ p q : Int, 0 < p → p ≤ q → q < 16384 → (classify p).toInt.natAbs ≤ (classify q).toInt.natAbs) ∧
    (∀ d : Int, classify d ≠ .inv → (0 < (classify d).toInt ↔ 0 < d) ∧ ((classify d).toInt < 0 ↔ d < 0)) ∧
    (∀ d : Int, -5 ≤ (classify d).toInt ∧ (classify d).toInt ≤ 5)

/-- R80, R81, R82, R73: each magnitude row returns what `classify` gives the duration its key stands for, and writes no register.
That such a row runs by itself is the model's choice (log 7). -/
def Obligations.MagnitudeRowsReturnTheCategory : Prop :=
  ∀ (s : State) (level : Level),
    exec .magZero s = .next { s with out := { ret := .category (classify 0) } } ∧
    (∀ low : BitVec 9,
      exec (.magM1 level low) s = .next { s with out := { ret := .category (classify (signedDuration level low.toNat)) } }) ∧
    (∀ low : BitVec 9,
      exec (.magM2Low level low) s =
        .next { s with out := { ret := .category (classify (signedDuration level (512 + low.toNat))) } }) ∧
    (∀ low : BitVec 10,
      exec (.magM2High level low) s =
        .next { s with out := { ret := .category (classify (signedDuration level (1024 + low.toNat))) } }) ∧
    (∀ low : BitVec 11,
      exec (.magM3 level low) s =
        .next { s with out := { ret := .category (classify (signedDuration level (2048 + low.toNat))) } }) ∧
    (∀ low : BitVec 12,
      exec (.magM4 level low) s =
        .next { s with out := { ret := .category (classify (signedDuration level (4096 + low.toNat))) } }) ∧
    (∀ low : BitVec 13,
      exec (.magM5 level low) s =
        .next { s with out := { ret := .category (classify (signedDuration level (8192 + low.toNat))) } }) ∧
    (∀ p : Nat, 16384 ≤ p →
      exec (.magInvLong level p) s = .next { s with out := { ret := .category (classify (signedDuration level p)) } })

/-- R252: within these margins a measured duration classifies as its nominal value does, for both signs. -/
def Obligations.NominalMargins : Prop :=
  ∀ (n below above : Nat),
    (n, below, above) ∈
        [(350, 349, 161), (1050, 538, 997), (10850, 2658, 5533), (310, 309, 201), (215, 214, 296), (1236, 724, 811),
          (2643, 595, 1452), (10150, 1958, 6233)] →
      ∀ p : Nat,
        (n - below ≤ p ∧ p ≤ n + above ↔ classify p = classify n) ∧
        (n - below ≤ p ∧ p ≤ n + above ↔ classify (-(p : Int)) = classify (-(n : Int)))

/-! ### The receive step -/

/-- R91, R110: `Unknown` is left on `L5` only; anything else stays there, without `frame_end`, `InvalidPulse` being raised for category 0.
The row of R110 is stated here for the valid categories (what it records for category 0 is log 8). -/
def Obligations.UnknownLeavesOnlyOnL5 : Prop :=
  ∀ (s : State) (d : Int) (pend : Pending),
    s.rxState = .unknown →
      (classify d = .l5 →
        exec (.pulse d) s = .next (moved s .syncA1 none) ∧ exec (.unknownL5 pend) s = .next (moved s .syncA1 none)) ∧
      (classify d ≠ .l5 →
        exec (.pulse d) s =
          .next
            { s with
              rxState := .unknown, pending := none,
              out := { invalidPulse := if classify d = .inv then some (.duration d) else none } }) ∧
      (classify d ≠ .l5 → classify d ≠ .inv →
        exec (.unknownOther (classify d) pend) s = .next { s with rxState := .unknown, pending := none, out := {} })

/-- R92 to R95 with R114: the sync pattern followed, as pulses and as rows, and the sync token of the format emitted at its end. -/
def Obligations.SyncPatternFollowed : Prop :=
  ∀ (s : State) (d : Int) (pend : Pending),
    (s.rxState = .syncA1 → classify d = .h1 →
      exec (.pulse d) s = .next (moved s .syncA2 none) ∧ exec (.synca1H1 pend) s = .next (moved s .syncA2 none)) ∧
    (s.rxState = .syncA2 → classify d = .l3 →
      exec (.pulse d) s = .next (moved s .syncA3 none) ∧ exec (.synca2L3 pend) s = .next (moved s .syncA3 none)) ∧
    (s.rxState = .syncA2 → classify d = .l2 →
      exec (.pulse d) s = .next (emitted s .syncB .bitB2) ∧ exec (.synca2L2 pend) s = .next (emitted s .syncB .bitB2)) ∧
    (s.rxState = .syncA3 → classify d = .h1 →
      exec (.pulse d) s = .next (emitted s .syncA .bitA0) ∧ exec (.synca3H1 pend) s = .next (emitted s .syncA .bitA0))

/-- R96 to R100: the Format A transitions that push nothing. -/
def Obligations.FormatABitAssembled : Prop :=
  ∀ (s : State) (d : Int) (pend : Pending),
    (s.rxState = .bitA0 → classify d = .l2 →
      exec (.pulse d) s = .next (moved s .bitA1 (some true)) ∧ exec (.bita0L2 pend) s = .next (moved s .bitA1 (some true))) ∧
    (s.rxState = .bitA0 → classify d = .l1 →
      exec (.pulse d) s = .next (moved s .bitA1 (some false)) ∧ exec (.bita0L1 pend) s = .next (moved s .bitA1 (some false))) ∧
    (s.rxState = .bitA1 → classify d = .h1 →
      exec (.pulse d) s = .next (moved s .bitA2 s.pending) ∧ exec (.bita1H1 pend) s = .next (moved s .bitA2 s.pending)) ∧
    (s.rxState = .bitA2 → s.pending = some true → classify d = .l1 →
      exec (.pulse d) s = .next (moved s .bitA3 (some true)) ∧ exec .bita2L1P1 s = .next (moved s .bitA3 (some true))) ∧
    (s.rxState = .bitA2 → s.pending = some false → classify d = .l2 →
      exec (.pulse d) s = .next (moved s .bitA3 (some false)) ∧ exec .bita2L2P0 s = .next (moved s .bitA3 (some false)))

/-- R102 to R105: the Format B transitions that push nothing. -/
def Obligations.FormatBBitAssembled : Prop :=
  ∀ (s : State) (d : Int) (pend : Pending),
    (s.rxState = .bitB0 → classify d = .h1 →
      exec (.pulse d) s = .next (moved s .bitB1 none) ∧ exec (.bitb0H1 pend) s = .next (moved s .bitB1 none)) ∧
    (s.rxState = .bitB1 → classify d = .l2 →
      exec (.pulse d) s = .next (moved s .bitB2 none) ∧ exec (.bitb1L2 pend) s = .next (moved s .bitB2 none)) ∧
    (s.rxState = .bitB2 → classify d = .h2 →
      exec (.pulse d) s = .next (moved s .bitB3 (some true)) ∧ exec (.bitb2H2 pend) s = .next (moved s .bitB3 (some true))) ∧
    (s.rxState = .bitB2 → classify d = .h1 →
      exec (.pulse d) s = .next (moved s .bitB3 (some false)) ∧ exec (.bitb2H1 pend) s = .next (moved s .bitB3 (some false)))

/-- R101, R106, R107 with R114: the three transitions that emit a bit. -/
def Obligations.BitTokensEmitted : Prop :=
  ∀ (s : State) (d : Int) (b : Bool),
    (s.rxState = .bitA3 → s.pending = some b → classify d = .h1 →
      exec (.pulse d) s = .next (emitted s (.bit b) .bitA0) ∧ exec (.bita3H1 b) s = .next (emitted s (.bit b) .bitA0)) ∧
    (s.rxState = .bitB3 → s.pending = some true → classify d = .l1 →
      exec (.pulse d) s = .next (emitted s (.bit true) .bitB0) ∧ exec .bitb3L1P1 s = .next (emitted s (.bit true) .bitB0)) ∧
    (s.rxState = .bitB3 → s.pending = some false → classify d = .l2 →
      exec (.pulse d) s = .next (emitted s (.bit false) .bitB0) ∧ exec .bitb3L2P0 s = .next (emitted s (.bit false) .bitB0))

/-- R109, R108 (with R66's list of the defined pairs): outside `Unknown` any other pair, and a confirmation or emission with nothing
pending, returns to `Unknown` with `frame_end` and `Desync`, and `InvalidPulse` as well for category 0. The row `DEFAULT` is stated here
for the valid categories (what it records for category 0 is log 8). -/
def Obligations.MismatchReturnsToUnknown : Prop :=
  ∀ (s : State) (d : Int) (st : RxState) (pend : Pending),
    s.rxState ≠ .unknown → listedPair s.rxState (classify d) s.pending = false →
      exec (.pulse d) s =
          .next
            { s with
              rxState := .unknown, pending := none,
              out :=
                { frameEnd := true, desync := some (s.rxState, classify d)
                  invalidPulse := if classify d = .inv then some (.duration d) else none } } ∧
        (classify d ≠ .inv →
          exec (.dflt st (classify d) pend) s =
            .next
              { s with
                rxState := .unknown, pending := none, out := { frameEnd := true, desync := some (s.rxState, classify d) } })

/-- R114: push or drop, for the results of the five emitting transitions. That the row by itself signals `frame_end` on a drop whatever
the state it is applied in is the model's reading (log 9). -/
def Obligations.PushOrDropRow : Prop :=
  ∀ (s : State) (b : Bool),
    exec (.pulsePushOrDrop .syncB) s = .next (emitted s .syncB .bitB2) ∧
    exec (.pulsePushOrDrop .syncA) s = .next (emitted s .syncA .bitA0) ∧
    exec (.pulsePushOrDrop (.bitA b)) s = .next (emitted s (.bit b) .bitA0) ∧
    exec (.pulsePushOrDrop (.bitB b)) s = .next (emitted s (.bit b) .bitB0)

/-- R66, R90: in every state a receive row is the `PULSE` step of its category, but that `InvalidPulse` then records no duration (log 6,
log 8: what a row does where its key is not the machine's is the model's choice). -/
def Obligations.RowIsThePulseOfItsCategory : Prop :=
  ∀ (i : Instr) (s : State) (d : Int),
    rowCategoryOf i = some (classify d) →
      ∃ t u,
        exec i s = .next t ∧ exec (.pulse d) s = .next u ∧
          t = { u with out := { u.out with invalidPulse := u.out.invalidPulse.map fun _ => .categoryOnly } }

/-- R72, R66: the row a receive key decodes to is the first row of the table with `(key AND mask) = match`, and it carries the key's
category. -/
def Obligations.KeyDecodesToTheFirstRow : Prop :=
  ∀ (ctx : DecodeCtx) (st : RxState) (c : Category) (pend : Pending),
    ∃ i, decode ctx (.rxstep (keyOf st c pend)) = .ok i ∧ rxTableIndex i = rxTableFirst (keyOf st c pend) ∧ rowCategoryOf i = some c

/-- R116, R209: `frame_end` is 1 in exactly the steps that take `rx_state` from another state to `Unknown`, and the events a `PULSE` step
can signal together are those of R209. -/
def Obligations.PulseSignals : Prop :=
  ∀ (s : State) (d : Int),
    ∃ t, exec (.pulse d) s = .next t ∧
      (t.out.frameEnd = true ↔ s.rxState ≠ .unknown ∧ t.rxState = .unknown) ∧
      (t.out.signals .invalidPulse = true ↔ classify d = .inv) ∧
      (t.out.signals .overflow = true → t.out.signals .invalidPulse = false ∧ t.out.signals .desync = false) ∧
      (t.out.frameEnd = true ↔ t.out.signals .desync = true ∨ t.out.signals .overflow = true) ∧
      (t.out.signals .invalidPulse = true → (t.out.signals .desync = true ↔ s.rxState ≠ .unknown)) ∧
      (t.out.pushed ≠ none → t.out.frameEnd = false) ∧
      t.out.signals .incompleteFrame = false ∧ t.out.signals .malformedText = false

/-- R54, R115, R135(e): what a `PULSE` step leaves unchanged; the buffer keeps its tokens and gains at most the pushed one. -/
def Obligations.PulseFrame : Prop :=
  ∀ (s : State) (d : Int),
    ∃ t, exec (.pulse d) s = .next t ∧ sameTx s t ∧ sameRest s t ∧
      t.fifo = s.fifo ++ t.out.pushed.toList ∧
      (t.out.pushed ≠ none → s.fifo.length < s.params.tokenCap) ∧
      (t.out.overflow = none → t.ovfCount = s.ovfCount)

/-- R117: from any state `L5` leads to `SyncA1` within at most two steps. -/
def Obligations.TwoL5ReachSyncA1 : Prop :=
  ∀ (s : State) (d e : Int), classify d = .l5 → classify e = .l5 →
    (s.rxState = .unknown → ∃ t os, run [.pulse d] s = some (t, os) ∧ t.rxState = .syncA1) ∧
    (s.rxState ≠ .unknown → ∃ t os, run [.pulse d, .pulse e] s = some (t, os) ∧ t.rxState = .syncA1 ∧ frameEnds os = 1)

/-- R112: the machine does not count bits: from `BitA0` (`BitB0`) the bit symbols of any list of bits push exactly those bits, given room,
and end where they began. -/
def Obligations.BitsAssembledWithoutCounting : Prop :=
  ∀ (v : Version) (bits : List Bool) (s : State),
    s.rxState = afterFrame v → s.fifo.length + bits.length ≤ s.params.tokenCap →
      ∃ t os,
        run (pulsesOf (bits.flatMap (bitSymbol v))) s = some (t, os) ∧ pushes os = bits.map .bit ∧
          t.fifo = s.fifo ++ bits.map .bit ∧ t.rxState = afterFrame v ∧ frameEnds os = 0 ∧ drops os = 0

/-- R118: a clean frame from `Unknown` with room is received whole: exactly its sync token and bits, no `frame_end`, and the machine ends
in `BitB0` or `BitA0` with nothing pending. -/
def Obligations.CleanFrameReceived : Prop :=
  ∀ (c : Command) (s : State),
    s.rxState = .unknown → s.fifo.length + (frameTokens c).length ≤ s.params.tokenCap →
      ∃ t os,
        run (pulsesOf (rep c)) s = some (t, os) ∧ pushes os = frameTokens c ∧ t.fifo = s.fifo ++ frameTokens c ∧
          frameEnds os = 0 ∧ drops os = 0 ∧ t.rxState = afterFrame c.version ∧ t.pending = none

/-- R120, R119: a Modern32 repetition whose `L5` meets any state but `Unknown` is lost: nothing is pushed, one `frame_end` is signalled,
and the machine ends in `Unknown`. -/
def Obligations.ModernFrameLostOutsideUnknown : Prop :=
  ∀ (f : CmdFields) (s : State),
    s.rxState ≠ .unknown →
      ∃ t os,
        run (pulsesOf (rep { version := .modern32, fields := f })) s = some (t, os) ∧ pushes os = [] ∧ t.fifo = s.fifo ∧
          frameEnds os = 1 ∧ t.rxState = .unknown

/-- R241: of `k` repetitions sent back to back from `Unknown`, `ceil(k / 2)` are received, and `frame_end` is signalled `floor(k / 2)`
times. -/
def Obligations.EverySecondRepetitionLost : Prop :=
  ∀ (c : Command) (k : Nat) (s : State),
    s.rxState = .unknown → s.fifo.length + (k + 1) / 2 * (frameTokens c).length ≤ s.params.tokenCap →
      ∃ t os,
        run (pulsesOf (waveform c k)) s = some (t, os) ∧
          pushes os = (List.replicate ((k + 1) / 2) (frameTokens c)).flatten ∧ frameEnds os = k / 2 ∧ drops os = 0

/-- R120: a Modern32 frame and directly after it a Legacy12 frame, the one back-to-back pair that is received whole: the tokens of both in
order, and one `frame_end` between them. -/
def Obligations.ModernThenLegacyBothReceived : Prop :=
  ∀ (f g : CmdFields) (s : State),
    s.rxState = .unknown → s.fifo.length + 46 ≤ s.params.tokenCap →
      ∃ t os,
        run (pulsesOf (rep { version := .modern32, fields := f } ++ rep { version := .legacy12, fields := g })) s = some (t, os) ∧
          pushes os = frameTokens { version := .modern32, fields := f } ++ frameTokens { version := .legacy12, fields := g } ∧
          frameEnds os = 1 ∧ drops os = 0 ∧ t.rxState = .bitB0

/-- R121, R114: a full buffer that nobody drains keeps its content through any pulses. -/
def Obligations.FullBufferKeepsItsContent : Prop :=
  ∀ (ds : List Int) (s : State),
    s.fifo.length = s.params.tokenCap →
      ∃ t os, run (ds.map .pulse) s = some (t, os) ∧ t.fifo = s.fifo ∧ pushes os = []

/-! ### The Token Buffer -/

/-- R131, R132: `POP` removes and returns the oldest token; on an empty buffer it returns none and changes nothing. -/
def Obligations.PopTakesTheOldest : Prop :=
  (∀ (s : State) (t : Token) (rest : List Token), s.fifo = t :: rest →
    exec .pop s = .next { s with fifo := rest, out := { ret := .popped (some t) } }) ∧
  (∀ s : State, s.fifo = [] → exec .pop s = .next { s with out := { ret := .popped none } })

/-- R133, R134: the status reads return the length and the count and change nothing. -/
def Obligations.StatusReadsChangeNothing : Prop :=
  ∀ s : State,
    exec .len s = .next { s with out := { ret := .length s.fifo.length } } ∧
    exec .readOvf s = .next { s with out := { ret := .overflows s.ovfCount } }

/-- R57: the four cell bytes, and no other, are tokens; a token row returns its token and writes nothing.
That such a row runs by itself is the model's choice (log 7), as is the refusal by name (log 12). -/
def Obligations.TokenBytes : Prop :=
  ∀ (ctx : DecodeCtx) (s : State),
    (decode ctx (.token 0x41) = .ok .tokenSynca ∧ exec .tokenSynca s = .next { s with out := { ret := .token .syncA } }) ∧
    (decode ctx (.token 0x42) = .ok .tokenSyncb ∧ exec .tokenSyncb s = .next { s with out := { ret := .token .syncB } }) ∧
    (decode ctx (.token 0x30) = .ok .tokenBit0 ∧ exec .tokenBit0 s = .next { s with out := { ret := .token (.bit false) } }) ∧
    (decode ctx (.token 0x31) = .ok .tokenBit1 ∧ exec .tokenBit1 s = .next { s with out := { ret := .token (.bit true) } }) ∧
    (∀ b : Byte, b ≠ 0x41 → b ≠ 0x42 → b ≠ 0x30 → b ≠ 0x31 → decode ctx (.token b) = .error .tokenByte)

/-- R42, R135(c): over any run of operations without `RESET`, the tokens popped, then those still in the buffer, are the tokens that were
in it at the start, then those pushed: first in, first out, none lost, none duplicated. -/
def Obligations.FirstInFirstOut : Prop :=
  ∀ (is : List Instr) (s t : State) (os : List Outputs),
    .reset ∉ is → run is s = some (t, os) → pops os ++ t.fifo = s.fifo ++ pushes os

/-- R135(d): over any run without `RESET`, the counter counts the dropped tokens, saturating. -/
def Obligations.OverflowCounterCounts : Prop :=
  ∀ (is : List Instr) (s t : State) (os : List Outputs),
    .reset ∉ is → s.ovfCount ≤ s.params.ovfMax → run is s = some (t, os) →
      t.ovfCount = min (s.ovfCount + drops os) s.params.ovfMax

/-! ### The transmitter -/

/-- R160: `TRANSMIT` of either format with the transmitter idle loads the whole waveform and the marker, sets busy, and writes nothing else.
That nothing is returned is log 19. -/
def Obligations.TransmitLoadsTheWaveform : Prop :=
  ∀ (s : State) (f : CmdFields) (repeats : Nat), s.txBusy = false →
    exec (.transmitLegacy12 f repeats) s =
        .next
          { s with
            txQueue := (waveform { version := .legacy12, fields := f } repeats).map .seg ++ [.final .low], txBusy := true,
            out := {} } ∧
      exec (.transmitModern32 f repeats) s =
        .next
          { s with
            txQueue := (waveform { version := .modern32, fields := f } repeats).map .seg ++ [.final .low], txBusy := true,
            out := {} }

/-- R168, R161: `TRANSMIT` while busy, whatever the operands, and `TRANSMIT` of a version that is neither format, change nothing.
That nothing is returned either is log 19 (R247). That a row other than `TRANSMIT.BUSY`, run while busy, is refused is log 6. -/
def Obligations.TransmitRefusalChangesNothing : Prop :=
  ∀ (s : State) (v : BitVec 4) (f : CmdFields) (repeats : Nat),
    (s.txBusy = true →
      exec (.transmitBusy v f repeats) s = .next { s with out := {} } ∧
      exec (.transmitLegacy12 f repeats) s = .next { s with out := {} } ∧
      exec (.transmitModern32 f repeats) s = .next { s with out := {} } ∧
      exec (.transmitBadversion v f repeats) s = .next { s with out := {} }) ∧
    (s.txBusy = false → v ≠ 1 → v ≠ 2 → exec (.transmitBadversion v f repeats) s = .next { s with out := {} })

/-- Log 6 (the model's choice): where its own condition does not hold, a row is the row of the same call that applies. -/
def Obligations.RowElsewhereIsTheRowThatApplies : Prop :=
  (∀ (s : State) (f : CmdFields) (repeats : Nat), s.txBusy = false →
    (∀ i, i = .transmitBusy 1 f repeats ∨ i = .transmitBadversion 1 f repeats →
      exec i s =
        .next
          { s with
            txQueue := (waveform { version := .legacy12, fields := f } repeats).map .seg ++ [.final .low], txBusy := true,
            out := {} }) ∧
    (∀ i, i = .transmitBusy 2 f repeats ∨ i = .transmitBadversion 2 f repeats →
      exec i s =
        .next
          { s with
            txQueue := (waveform { version := .modern32, fields := f } repeats).map .seg ++ [.final .low], txBusy := true,
            out := {} }) ∧
    ∀ v : BitVec 4, v ≠ 1 → v ≠ 2 → exec (.transmitBusy v f repeats) s = .next { s with out := {} }) ∧
  (∀ (s : State) (g : Segment) (rest : List TxEntry), s.txBusy = true → s.txQueue = .seg g :: rest →
    exec .txstepFinal s = .next { s with pin := g.level, trace := s.trace ++ [g], txQueue := rest, out := {} })

/-- R162: the fields a Legacy12 frame does not carry cannot reach the wire. -/
def Obligations.LegacyIgnoresOtherFields : Prop :=
  ∀ (s : State) (f g : CmdFields) (repeats : Nat),
    f.device.extractLsb' 0 8 = g.device.extractLsb' 0 8 → f.state = g.state →
      exec (.transmitLegacy12 f repeats) s = exec (.transmitLegacy12 g repeats) s

/-- R61, R150: the Legacy12 frame, bit by bit in time order.
That the row runs by itself is the model's choice (log 7). -/
def Obligations.LegacyFrameLayout : Prop :=
  (∀ (s : State) (device : BitVec 8) (state : Bool),
    ∃ bits, exec (.frame12 device state) s = .next { s with out := { ret := .frame bits } } ∧ bits.length = 12 ∧
      (∀ i, i < 8 → bits[i]? = some (device.getLsbD (7 - i))) ∧
      bits[8]? = some false ∧ bits[9]? = some true ∧ bits[10]? = some true ∧ bits[11]? = some state) ∧
  (∀ f : CmdFields,
    (frameBits { version := .legacy12, fields := f }).length = 12 ∧
      (∀ i, i < 8 → (frameBits { version := .legacy12, fields := f })[i]? = some (f.device.getLsbD (7 - i))) ∧
      (frameBits { version := .legacy12, fields := f }).drop 8 = [false, true, true, f.state])

/-- R62, R151: the Modern32 frame, bit by bit in time order.
That the row runs by itself is the model's choice (log 7). -/
def Obligations.ModernFrameLayout : Prop :=
  ∀ (s : State) (f : CmdFields),
    ∃ bits, exec (.frame32 f) s = .next { s with out := { ret := .frame bits } } ∧
      bits = frameBits { version := .modern32, fields := f } ∧ bits.length = 32 ∧
      (∀ i, i < 24 → bits[i]? = some (f.device.getLsbD (23 - i))) ∧
      bits[24]? = some true ∧ bits[25]? = some false ∧ bits[26]? = some f.group ∧ bits[27]? = some f.state ∧
      (∀ j, j < 4 → bits[28 + j]? = some (f.channel.getLsbD (3 - j)))

/-- R152 to R157, and the symbols of R158 and R159: the segments of the eight symbols, returned by their rows, which write no register;
how long the six last and how they are received.
That the rows run by themselves is the model's choice (log 7). -/
def Obligations.SymbolSegments : Prop :=
  (∀ s : State,
    exec .txSync12 s = .next { s with out := { ret := .symbol [⟨.high, 350⟩, ⟨.low, 10850⟩] none } } ∧
    exec .txBit12One s =
      .next { s with out := { ret := .symbol [⟨.high, 350⟩, ⟨.low, 1050⟩, ⟨.high, 1050⟩, ⟨.low, 350⟩] none } } ∧
    exec .txBit12Zero s =
      .next { s with out := { ret := .symbol [⟨.high, 350⟩, ⟨.low, 1050⟩, ⟨.high, 350⟩, ⟨.low, 1050⟩] none } } ∧
    exec .txSync32 s =
      .next { s with out := { ret := .symbol [⟨.low, 10150⟩, ⟨.high, 310⟩, ⟨.low, 2643⟩, ⟨.high, 310⟩] none } } ∧
    exec .txBit32One s =
      .next { s with out := { ret := .symbol [⟨.low, 1236⟩, ⟨.high, 310⟩, ⟨.low, 215⟩, ⟨.high, 310⟩] none } } ∧
    exec .txBit32Zero s =
      .next { s with out := { ret := .symbol [⟨.low, 215⟩, ⟨.high, 310⟩, ⟨.low, 1236⟩, ⟨.high, 310⟩] none } } ∧
    exec .txTerm12 s = .next { s with out := { ret := .symbol [⟨.high, 350⟩] (some .low) } } ∧
    exec .txTerm32 s = .next { s with out := { ret := .symbol [] (some .low) } }) ∧
  (totalDuration [⟨.high, 350⟩, ⟨.low, 10850⟩] = 11200 ∧ categories [⟨.high, 350⟩, ⟨.low, 10850⟩] = [.h1, .l5]) ∧
  (totalDuration [⟨.high, 350⟩, ⟨.low, 1050⟩, ⟨.high, 1050⟩, ⟨.low, 350⟩] = 2800 ∧
    categories [⟨.high, 350⟩, ⟨.low, 1050⟩, ⟨.high, 1050⟩, ⟨.low, 350⟩] = [.h1, .l2, .h2, .l1]) ∧
  (totalDuration [⟨.high, 350⟩, ⟨.low, 1050⟩, ⟨.high, 350⟩, ⟨.low, 1050⟩] = 2800 ∧
    categories [⟨.high, 350⟩, ⟨.low, 1050⟩, ⟨.high, 350⟩, ⟨.low, 1050⟩] = [.h1, .l2, .h1, .l2]) ∧
  (totalDuration [⟨.low, 10150⟩, ⟨.high, 310⟩, ⟨.low, 2643⟩, ⟨.high, 310⟩] = 13413 ∧
    categories [⟨.low, 10150⟩, ⟨.high, 310⟩, ⟨.low, 2643⟩, ⟨.high, 310⟩] = [.l5, .h1, .l3, .h1]) ∧
  (totalDuration [⟨.low, 1236⟩, ⟨.high, 310⟩, ⟨.low, 215⟩, ⟨.high, 310⟩] = 2071 ∧
    categories [⟨.low, 1236⟩, ⟨.high, 310⟩, ⟨.low, 215⟩, ⟨.high, 310⟩] = [.l2, .h1, .l1, .h1]) ∧
  (totalDuration [⟨.low, 215⟩, ⟨.high, 310⟩, ⟨.low, 1236⟩, ⟨.high, 310⟩] = 2071 ∧
    categories [⟨.low, 215⟩, ⟨.high, 310⟩, ⟨.low, 1236⟩, ⟨.high, 310⟩] = [.l1, .h1, .l2, .h1])

/-- R163, R164, R169, R251: how many segments a repetition and a waveform have and how long they last, whatever the command. -/
def Obligations.WaveformSizes : Prop :=
  ∀ (f : CmdFields) (n : Nat),
    (rep { version := .legacy12, fields := f }).length = 50 ∧ totalDuration (rep { version := .legacy12, fields := f }) = 44800 ∧
    (rep { version := .modern32, fields := f }).length = 132 ∧ totalDuration (rep { version := .modern32, fields := f }) = 79685 ∧
    (waveform { version := .legacy12, fields := f } n).length = 50 * n + 1 ∧
    (waveform { version := .modern32, fields := f } n).length = 132 * n ∧
    totalDuration (waveform { version := .legacy12, fields := f } n) = 44800 * n + 350 ∧
    totalDuration (waveform { version := .modern32, fields := f } n) = 79685 * n

/-- R165: neighbouring segments of a waveform have opposite levels, and the last segment's level is opposite to the final level. -/
def Obligations.WaveformAlternates : Prop :=
  ∀ (c : Command) (n : Nat),
    alternating (waveform c n) = true ∧ ∀ g, (waveform c n).getLast? = some g → g.level = finalLevel.flip

/-- R63, R240: on the wire every segment of a waveform is one pulse of its own duration, but that a Modern32 waveform's first LOW segment
joins an idle LOW of `t` microseconds before it, which is then `L5` up to 16383 microseconds in all and invalid beyond. -/
def Obligations.WaveformOnTheWire : Prop :=
  (∀ (c : Command) (n : Nat), wirePulses (waveform c n) = (waveform c n).map segPulse) ∧
  (∀ (f : CmdFields) (n t : Nat),
    ∃ rest,
      (waveform { version := .modern32, fields := f } (n + 1)).map segPulse = -10150 :: rest ∧
      wirePulses (lo t :: waveform { version := .modern32, fields := f } (n + 1)) = -((t : Int) + 10150) :: rest ∧
      (t + 10150 ≤ 16383 → classify (-((t : Int) + 10150)) = .l5) ∧
      (16383 < t + 10150 → classify (-((t : Int) + 10150)) = .inv))

/-- R166: `TXSTEP` with a segment at the head puts it out: the pin takes its level, the trace gains it, the queue loses it. With
`tx_busy = 0` it has no step.
The model says that as the fault `txIdle` (log 10). -/
def Obligations.TxStepPutsTheNextSegment : Prop :=
  (∀ (s : State) (g : Segment) (rest : List TxEntry), s.txBusy = true → s.txQueue = .seg g :: rest →
    exec .txstep s = .next { s with pin := g.level, trace := s.trace ++ [g], txQueue := rest, out := {} }) ∧
  (∀ s : State, s.txBusy = false → exec .txstep s = .fault .txIdle ∧ exec .txstepFinal s = .fault .txIdle)

/-- R167: `TXSTEP` with only the final-level marker left sets the pin to it and ends the transmission. -/
def Obligations.TxStepEndsTheWaveform : Prop :=
  ∀ (s : State) (level : Level), s.txBusy = true → s.txQueue = [.final level] →
    exec .txstepFinal s = .next { s with pin := level, txQueue := [], txBusy := false, out := {} } ∧
    exec .txstep s = .next { s with pin := level, txQueue := [], txBusy := false, out := {} }

/-- R164, R167: from an idle transmitter, `TRANSMIT` of a command and as many `TXSTEP`s as the waveform has segments, plus one, put out
exactly the waveform in order, leave the pin `LOW` and the transmitter idle, and touch nothing else; with fewer it is still busy. -/
def Obligations.WaveformPutOutWhole : Prop :=
  ∀ (f : CmdFields) (repeats : Nat) (s : State) (i : Instr) (c : Command),
    s.txBusy = false →
    (i = .transmitLegacy12 f repeats ∧ c = { version := .legacy12, fields := f } ∨
      i = .transmitModern32 f repeats ∧ c = { version := .modern32, fields := f }) →
      (∃ t os,
        run (i :: List.replicate ((waveform c repeats).length + 1) .txstep) s = some (t, os) ∧
          t.trace = s.trace ++ waveform c repeats ∧ t.txQueue = [] ∧ t.txBusy = false ∧ t.pin = .low ∧ sameRx s t ∧ sameRest s t) ∧
      (∀ k, k ≤ (waveform c repeats).length →
        ∃ t os,
          run (i :: List.replicate k .txstep) s = some (t, os) ∧ t.txBusy = true ∧
            t.trace = s.trace ++ (waveform c repeats).take k)

/-- R170: a wait split into chunks keeps the whole time and no chunk is longer than the longest single wait.
No step reads the function (log 18). -/
def Obligations.WaitSplitKeepsTheTime : Prop :=
  ∀ (maxWait t : Nat), 0 < maxWait →
    (splitWait maxWait t t).sum = t ∧ ∀ w ∈ splitWait maxWait t t, w ≤ maxWait

/-! ### Host software -/

/-- R181, R182, R203: a sync token starts a new candidate frame, whatever was in progress; an unfinished one is an `IncompleteFrame`. -/
def Obligations.SyncTokenStartsAFrame : Prop :=
  ∀ s : State,
    exec (.parseToken .syncA) s =
        .next
          { s with
            parser := { mode := .a, bits := [] },
            out := { ret := .command none, incompleteFrame := frameInProgress s.parser } } ∧
      exec (.parseToken .syncB) s =
        .next
          { s with
            parser := { mode := .b, bits := [] },
            out := { ret := .command none, incompleteFrame := frameInProgress s.parser } } ∧
      (frameInProgress s.parser = true ↔
        (s.parser.mode = .a ∧ s.parser.bits.length < 32) ∨ (s.parser.mode = .b ∧ s.parser.bits.length < 12))

/-- R183, R181: a bit with no frame in progress is skipped; one that does not complete its frame is kept. -/
def Obligations.BitTokenKeptOrSkipped : Prop :=
  ∀ (s : State) (b : Bool),
    (s.parser.mode = .none → exec (.parseToken (.bit b)) s = .next { s with out := { ret := .command none } }) ∧
    (s.parser.mode = .a → s.parser.bits.length ≠ 31 →
      exec (.parseToken (.bit b)) s =
        .next { s with parser := { mode := .a, bits := s.parser.bits ++ [b] }, out := { ret := .command none } }) ∧
    (s.parser.mode = .b → s.parser.bits.length ≠ 11 →
      exec (.parseToken (.bit b)) s =
        .next { s with parser := { mode := .b, bits := s.parser.bits ++ [b] }, out := { ret := .command none } })

/-- R184, R185: the twelfth bit after `SyncB` completes a Legacy12 frame: with the marker `0,1,1` the command whose fields are the bits,
most significant first; otherwise no command, and an `IncompleteFrame` (R203).
That a failed marker is an `IncompleteFrame` is the spec's reading (log 22). -/
def Obligations.LegacyFrameDecoded : Prop :=
  ∀ (s : State) (b : Bool), s.parser.mode = .b → s.parser.bits.length = 11 →
    ((s.parser.bits ++ [b]).drop 8 = [false, true, true, b] →
      ∃ device : BitVec 24,
        exec (.parseToken (.bit b)) s =
          .next
            { s with
              parser := { mode := .none, bits := [] },
              out :=
                { ret :=
                    .command
                      (some
                        { version := .legacy12
                          fields := { device := device, group := false, channel := 0, state := b } }) } } ∧
        device.toNat < 256 ∧ ∀ i, i < 8 → s.parser.bits[i]? = some (device.getLsbD (7 - i))) ∧
    ((s.parser.bits ++ [b]).drop 8 ≠ [false, true, true, b] →
      exec (.parseToken (.bit b)) s =
        .next { s with parser := { mode := .none, bits := [] }, out := { ret := .command none, incompleteFrame := true } })

/-- R184, R186: the thirty-second bit after `SyncA` completes a Modern32 frame, in the same way with the marker `1,0`.
That a failed marker is an `IncompleteFrame` is the spec's reading (log 22). -/
def Obligations.ModernFrameDecoded : Prop :=
  ∀ (s : State) (b : Bool), s.parser.mode = .a → s.parser.bits.length = 31 →
    (s.parser.bits[24]? = some true ∧ s.parser.bits[25]? = some false →
      ∃ f : CmdFields,
        exec (.parseToken (.bit b)) s =
          .next
            { s with
              parser := { mode := .none, bits := [] },
              out := { ret := .command (some { version := .modern32, fields := f }) } } ∧
        (∀ i, i < 24 → s.parser.bits[i]? = some (f.device.getLsbD (23 - i))) ∧
        s.parser.bits[26]? = some f.group ∧ s.parser.bits[27]? = some f.state ∧
        (∀ j, j < 4 → (s.parser.bits ++ [b])[28 + j]? = some (f.channel.getLsbD (3 - j)))) ∧
    (¬(s.parser.bits[24]? = some true ∧ s.parser.bits[25]? = some false) →
      exec (.parseToken (.bit b)) s =
        .next { s with parser := { mode := .none, bits := [] }, out := { ret := .command none, incompleteFrame := true } })

/-- R189: one repetition of a valid command, received from `Unknown` into an empty buffer with room, popped and parsed from `p_mode = none`,
yields exactly that command. -/
def Obligations.RoundTrip : Prop :=
  ∀ (c : Command) (s : State),
    c.valid = true → s.rxState = .unknown → s.fifo = [] → (frameTokens c).length ≤ s.params.tokenCap → s.parser = {} →
      ∃ t os u ps,
        run (pulsesOf (rep c) ++ List.replicate (frameTokens c).length .pop) s = some (t, os) ∧ t.fifo = [] ∧
          run ((pops os).map .parseToken) t = some (u, ps) ∧ yields ps = [c] ∧ u.parser = {}

/-- R189, R241, R162: of `repeats` repetitions sent back to back, received from `Unknown` into an empty buffer with room, popped and parsed,
`ceil(repeats / 2)` commands are yielded, each the command as it stands on the wire. -/
def Obligations.RepeatedRoundTrip : Prop :=
  ∀ (c : Command) (repeats : Nat) (s : State),
    s.rxState = .unknown → s.fifo = [] → (repeats + 1) / 2 * (frameTokens c).length ≤ s.params.tokenCap → s.parser = {} →
      ∃ t os u ps,
        run (pulsesOf (waveform c repeats) ++ List.replicate ((repeats + 1) / 2 * (frameTokens c).length) .pop) s = some (t, os) ∧
          t.fifo = [] ∧ run ((pops os).map .parseToken) t = some (u, ps) ∧
          yields ps = List.replicate ((repeats + 1) / 2) c.onWire ∧ u.parser = {}

/-- R191: a line is parsed exactly when it fits the grammar, and the command is read off its positions (those of R190); otherwise no command
and `MalformedText` (R205). No state changes.
Characters are ASCII codes, and a line comes without its newline (log 17). -/
def Obligations.LineParsedByGrammar : Prop :=
  ∀ (s : State) (chars : List Byte),
    (lineGrammar chars = true →
      ∃ c : Command,
        exec (.line (.parse chars)) s = .next { s with out := { ret := .command (some c) } } ∧
        chars[0]? = some (match c.version with | .legacy12 => (0x31 : Byte) | .modern32 => 0x32) ∧
        (∀ i, i < 6 → (chars[2 + i]?).bind hexValue = some (c.fields.device.extractLsb' (4 * (5 - i)) 4).toNat) ∧
        chars[9]? = some (if c.fields.group then (0x31 : Byte) else 0x30) ∧
        (chars[11]?).bind hexValue = some c.fields.channel.toNat ∧ chars[13]? = some (if c.fields.state then (0x31 : Byte) else 0x30)) ∧
    (lineGrammar chars = false →
      exec (.line (.parse chars)) s = .next { s with out := { ret := .command none, malformedText := true } })

/-- R192: a command prints as 14 characters, no letter among them in lower case, and a newline, and parsing the printed line gives back the
command (so that the 14 characters are those of R190).
Characters are ASCII codes (log 17). -/
def Obligations.PrintedLineParsesBack : Prop :=
  ∀ (s : State) (c : Command),
    ∃ chars,
      exec (.line (.print c)) s = .next { s with out := { ret := .text (chars ++ [0x0A]) } } ∧ chars.length = 14 ∧
        (∀ ch ∈ chars, ch.toNat < 0x61) ∧ exec (.line (.parse chars)) s = .next { s with out := { ret := .command (some c) } }

/-! ### Encodings and the step -/

/-- R20, R59, R61, R62, R72: a few words written out from the spec's encodings decode to their rows.
That the format is told by the number of bits, that a magnitude is of a HIGH pulse and that a command comes with repeat count 0 is the
model's choice (log 21). -/
def Obligations.WordsDecodeToTheirRows : Prop :=
  decodeTableWord 10 0b0000000000 = some (.unknownL5 none) ∧
    decodeTableWord 10 0b0110010011 = some .bita2L1P1 ∧
    decodeTableWord 10 0b0110010010 = some (.dflt .bitA2 .l1 (some false)) ∧
    decodeTableWord 10 0b0000011000 = some (.unknownOther .h1 none) ∧
    decodeTableWord 15 0b000000111111111 = some (.magM1 .high 511) ∧
    decodeTableWord 15 0b100000000000000 = some (.magInvLong .high 16384) ∧
    decodeTableWord 8 0b01000001 = some .tokenSynca ∧
    decodeTableWord 12 0b001011110111 = some (.frame12 0x2F true) ∧
    decodeTableWord 32 0b10101011110011011110111110111010 =
      some (.frame32 { device := 0xABCDEF, group := true, channel := 0xA, state := true }) ∧
    decodeTableWord 34 0b0010101010111100110111101111110101 =
      some (.transmitModern32 { device := 0xABCDEF, group := true, channel := 0xA, state := true } 0)

/-- R72, R57, R59, R61, R62 (the ports of log 2): every well-formed instruction decodes from its encoding, in a context whose transmit
condition is the row's. -/
def Obligations.DecodeInvertsEncode : Prop :=
  ∀ (ctx : DecodeCtx) (i : Instr),
    ctx.params.wf = true → WellFormed ctx.params i = true → i.selectedBy ctx = true →
      decode ctx (encode ctx.params i) = .ok i

/-- R72 (log 12): reserved receive keys are rejected by the field that holds no code. -/
def Obligations.ReservedKeysRejected : Prop :=
  ∀ (ctx : DecodeCtx) (st c : BitVec 4) (pend : BitVec 2),
    (12 ≤ st.toNat → decode ctx (.rxstep (st ++ c ++ pend)) = .error .stateCode) ∧
    (st.toNat < 12 → 11 ≤ c.toNat → decode ctx (.rxstep (st ++ c ++ pend)) = .error .categoryCode) ∧
    (st.toNat < 12 → c.toNat < 11 → pend = 1 → decode ctx (.rxstep (st ++ c ++ pend)) = .error .pendingCode)

/-- R2, R17 (log 1): a step makes the oldest waiting call: the row it decodes to runs in the state without that call; a call that stands for
no operation is refused by name (log 12). -/
def Obligations.StepRunsTheDecodedCall : Prop :=
  ∀ (s : State) (c : Call) (rest : List Call), s.input = c :: rest →
    (∀ i,
      decode { params := s.params, txBusy := s.txBusy, onlyFinal := onlyFinal s } c = .ok i →
        step s = exec i { s with input := rest }) ∧
    (∀ e,
      decode { params := s.params, txBusy := s.txBusy, onlyFinal := onlyFinal s } c = .error e →
        step s = .refused (.undecodable e))

/-- R217, R234 (log 11): with no call waiting a step is a `TXSTEP` while a waveform is in progress and otherwise holds the state. -/
def Obligations.StepWithNoCallWaiting : Prop :=
  ∀ s : State, s.input = [] →
    (s.txBusy = true → step s = exec .txstep s) ∧ (s.txBusy = false → step s = .next { s with out := {} })

/-- R167, R234 (log 11): from every state that meets the invariant, once no call waits, as many steps as `tx_queue` has entries end the
run, with the pin `LOW`. -/
def Obligations.RunEndsWhenTheQueueIsOut : Prop :=
  ∀ s : State, Inv s → s.input = [] →
    ∃ t, Host.Core.run core s.txQueue.length s = .next t ∧ runOver t ∧ t.pin = .low ∧ sameRx s t

/-! ### The whole machine -/

/-- R22, R23, R25, R28, R29, R35: the invariant holds after reset. -/
def Obligations.InvariantAtReset : Prop := Inv State.reset

/-- R22, R135(a), R25, R28, R29, R181: every step keeps the invariant: a bit is pending exactly in the four states of R22, the buffer and
the counter stay in bounds, `tx_queue` is a waveform's rest while busy and empty with the pin `LOW` while idle, the parser holds less than a frame. -/
def Obligations.StepKeepsTheInvariant : Prop := ∀ s t : State, Inv s → step s = .next t → Inv t

/-- R31, R18, R212: only the operations R31 names write each register, and nothing writes the parameters or the waiting calls.
That `RESET` leaves the output trace is the model's choice (log 5), and that it leaves the host's parser is log 22. -/
def Obligations.OnlyOwnersWrite : Prop :=
  ∀ (i : Instr) (s t : State), exec i s = .next t →
    (agentOf i ≠ some .rxp → i ≠ .reset → t.rxState = s.rxState ∧ t.pending = s.pending ∧ t.ovfCount = s.ovfCount) ∧
    (agentOf i ≠ some .rxp → i ≠ .pop → i ≠ .reset → t.fifo = s.fifo) ∧
    (agentOf i ≠ some .txa → i ≠ .reset → t.pin = s.pin) ∧
    (agentOf i ≠ some .txa → t.trace = s.trace) ∧
    (agentOf i ≠ some .txa → agentOf i ≠ some .host → t.txQueue = s.txQueue ∧ t.txBusy = s.txBusy) ∧
    (agentOf i ≠ some .software → t.parser = s.parser) ∧ t.params = s.params ∧ t.input = s.input

/-- R54: receive-side and transmit-side operations in either order give the same registers, and the one order stops exactly when the
other does. -/
def Obligations.ReceiveAndTransmitCommute : Prop :=
  ∀ (i j : Instr) (s : State),
    (agentOf i = some .rxp ∨ agentOf i = some .cons) →
    (agentOf j = some .txa ∨ (agentOf j = some .host ∧ j ≠ .reset)) →
      (run [i, j] s = none ↔ run [j, i] s = none) ∧
      ∀ t u os ps, run [i, j] s = some (t, os) → run [j, i] s = some (u, ps) → sameRx t u ∧ sameTx t u ∧ sameRest t u
end

