-- ==== Sys2Proof/Laws/State.lean ====
section
/-! SUPPORT. Laws/State.lean: for each one-register operation of Machine/Ops.lean, what every field of the state is after it. -/

namespace Sys2Proof.Machine

variable (s : State)

/-! `setOut` -/

@[simp] theorem setOut_rxState (o : Outputs) : (setOut s o).rxState = s.rxState := rfl
@[simp] theorem setOut_pending (o : Outputs) : (setOut s o).pending = s.pending := rfl
@[simp] theorem setOut_fifo (o : Outputs) : (setOut s o).fifo = s.fifo := rfl
@[simp] theorem setOut_ovfCount (o : Outputs) : (setOut s o).ovfCount = s.ovfCount := rfl
@[simp] theorem setOut_pin (o : Outputs) : (setOut s o).pin = s.pin := rfl
@[simp] theorem setOut_txQueue (o : Outputs) : (setOut s o).txQueue = s.txQueue := rfl
@[simp] theorem setOut_txBusy (o : Outputs) : (setOut s o).txBusy = s.txBusy := rfl
@[simp] theorem setOut_out (o : Outputs) : (setOut s o).out = o := rfl
@[simp] theorem setOut_trace (o : Outputs) : (setOut s o).trace = s.trace := rfl
@[simp] theorem setOut_parser (o : Outputs) : (setOut s o).parser = s.parser := rfl
@[simp] theorem setOut_params (o : Outputs) : (setOut s o).params = s.params := rfl
@[simp] theorem setOut_input (o : Outputs) : (setOut s o).input = s.input := rfl

/-! `setRx` -/

@[simp] theorem setRx_rxState (n : RxState) (p : Pending) : (setRx s n p).rxState = n := rfl
@[simp] theorem setRx_pending (n : RxState) (p : Pending) : (setRx s n p).pending = p := rfl
@[simp] theorem setRx_fifo (n : RxState) (p : Pending) : (setRx s n p).fifo = s.fifo := rfl
@[simp] theorem setRx_ovfCount (n : RxState) (p : Pending) : (setRx s n p).ovfCount = s.ovfCount := rfl
@[simp] theorem setRx_pin (n : RxState) (p : Pending) : (setRx s n p).pin = s.pin := rfl
@[simp] theorem setRx_txQueue (n : RxState) (p : Pending) : (setRx s n p).txQueue = s.txQueue := rfl
@[simp] theorem setRx_txBusy (n : RxState) (p : Pending) : (setRx s n p).txBusy = s.txBusy := rfl
@[simp] theorem setRx_out (n : RxState) (p : Pending) : (setRx s n p).out = s.out := rfl
@[simp] theorem setRx_trace (n : RxState) (p : Pending) : (setRx s n p).trace = s.trace := rfl
@[simp] theorem setRx_parser (n : RxState) (p : Pending) : (setRx s n p).parser = s.parser := rfl
@[simp] theorem setRx_params (n : RxState) (p : Pending) : (setRx s n p).params = s.params := rfl
@[simp] theorem setRx_input (n : RxState) (p : Pending) : (setRx s n p).input = s.input := rfl

/-! `fifoPush` -/

@[simp] theorem fifoPush_rxState (t : Token) : (fifoPush s t).rxState = s.rxState := rfl
@[simp] theorem fifoPush_pending (t : Token) : (fifoPush s t).pending = s.pending := rfl
@[simp] theorem fifoPush_fifo (t : Token) : (fifoPush s t).fifo = s.fifo ++ [t] := rfl
@[simp] theorem fifoPush_ovfCount (t : Token) : (fifoPush s t).ovfCount = s.ovfCount := rfl
@[simp] theorem fifoPush_pin (t : Token) : (fifoPush s t).pin = s.pin := rfl
@[simp] theorem fifoPush_txQueue (t : Token) : (fifoPush s t).txQueue = s.txQueue := rfl
@[simp] theorem fifoPush_txBusy (t : Token) : (fifoPush s t).txBusy = s.txBusy := rfl
@[simp] theorem fifoPush_out (t : Token) : (fifoPush s t).out = s.out := rfl
@[simp] theorem fifoPush_trace (t : Token) : (fifoPush s t).trace = s.trace := rfl
@[simp] theorem fifoPush_parser (t : Token) : (fifoPush s t).parser = s.parser := rfl
@[simp] theorem fifoPush_params (t : Token) : (fifoPush s t).params = s.params := rfl
@[simp] theorem fifoPush_input (t : Token) : (fifoPush s t).input = s.input := rfl

/-! `fifoDrop` -/

@[simp] theorem fifoDrop_rxState : (fifoDrop s).rxState = s.rxState := rfl
@[simp] theorem fifoDrop_pending : (fifoDrop s).pending = s.pending := rfl
@[simp] theorem fifoDrop_fifo : (fifoDrop s).fifo = s.fifo.tail := rfl
@[simp] theorem fifoDrop_ovfCount : (fifoDrop s).ovfCount = s.ovfCount := rfl
@[simp] theorem fifoDrop_pin : (fifoDrop s).pin = s.pin := rfl
@[simp] theorem fifoDrop_txQueue : (fifoDrop s).txQueue = s.txQueue := rfl
@[simp] theorem fifoDrop_txBusy : (fifoDrop s).txBusy = s.txBusy := rfl
@[simp] theorem fifoDrop_out : (fifoDrop s).out = s.out := rfl
@[simp] theorem fifoDrop_trace : (fifoDrop s).trace = s.trace := rfl
@[simp] theorem fifoDrop_parser : (fifoDrop s).parser = s.parser := rfl
@[simp] theorem fifoDrop_params : (fifoDrop s).params = s.params := rfl
@[simp] theorem fifoDrop_input : (fifoDrop s).input = s.input := rfl

/-! `countDrop` -/

@[simp] theorem countDrop_rxState : (countDrop s).rxState = s.rxState := rfl
@[simp] theorem countDrop_pending : (countDrop s).pending = s.pending := rfl
@[simp] theorem countDrop_fifo : (countDrop s).fifo = s.fifo := rfl
@[simp] theorem countDrop_ovfCount : (countDrop s).ovfCount = ovfNext s := rfl
@[simp] theorem countDrop_pin : (countDrop s).pin = s.pin := rfl
@[simp] theorem countDrop_txQueue : (countDrop s).txQueue = s.txQueue := rfl
@[simp] theorem countDrop_txBusy : (countDrop s).txBusy = s.txBusy := rfl
@[simp] theorem countDrop_out : (countDrop s).out = s.out := rfl
@[simp] theorem countDrop_trace : (countDrop s).trace = s.trace := rfl
@[simp] theorem countDrop_parser : (countDrop s).parser = s.parser := rfl
@[simp] theorem countDrop_params : (countDrop s).params = s.params := rfl
@[simp] theorem countDrop_input : (countDrop s).input = s.input := rfl

/-! `putOut` -/

@[simp] theorem putOut_rxState (g : Segment) : (putOut s g).rxState = s.rxState := rfl
@[simp] theorem putOut_pending (g : Segment) : (putOut s g).pending = s.pending := rfl
@[simp] theorem putOut_fifo (g : Segment) : (putOut s g).fifo = s.fifo := rfl
@[simp] theorem putOut_ovfCount (g : Segment) : (putOut s g).ovfCount = s.ovfCount := rfl
@[simp] theorem putOut_pin (g : Segment) : (putOut s g).pin = g.level := rfl
@[simp] theorem putOut_txQueue (g : Segment) : (putOut s g).txQueue = s.txQueue := rfl
@[simp] theorem putOut_txBusy (g : Segment) : (putOut s g).txBusy = s.txBusy := rfl
@[simp] theorem putOut_out (g : Segment) : (putOut s g).out = s.out := rfl
@[simp] theorem putOut_trace (g : Segment) : (putOut s g).trace = s.trace ++ [g] := rfl
@[simp] theorem putOut_parser (g : Segment) : (putOut s g).parser = s.parser := rfl
@[simp] theorem putOut_params (g : Segment) : (putOut s g).params = s.params := rfl
@[simp] theorem putOut_input (g : Segment) : (putOut s g).input = s.input := rfl

/-! `setPin` -/

@[simp] theorem setPin_rxState (l : Level) : (setPin s l).rxState = s.rxState := rfl
@[simp] theorem setPin_pending (l : Level) : (setPin s l).pending = s.pending := rfl
@[simp] theorem setPin_fifo (l : Level) : (setPin s l).fifo = s.fifo := rfl
@[simp] theorem setPin_ovfCount (l : Level) : (setPin s l).ovfCount = s.ovfCount := rfl
@[simp] theorem setPin_pin (l : Level) : (setPin s l).pin = l := rfl
@[simp] theorem setPin_txQueue (l : Level) : (setPin s l).txQueue = s.txQueue := rfl
@[simp] theorem setPin_txBusy (l : Level) : (setPin s l).txBusy = s.txBusy := rfl
@[simp] theorem setPin_out (l : Level) : (setPin s l).out = s.out := rfl
@[simp] theorem setPin_trace (l : Level) : (setPin s l).trace = s.trace := rfl
@[simp] theorem setPin_parser (l : Level) : (setPin s l).parser = s.parser := rfl
@[simp] theorem setPin_params (l : Level) : (setPin s l).params = s.params := rfl
@[simp] theorem setPin_input (l : Level) : (setPin s l).input = s.input := rfl

/-! `setTx` -/

@[simp] theorem setTx_rxState (q : List TxEntry) (b : Bool) : (setTx s q b).rxState = s.rxState := rfl
@[simp] theorem setTx_pending (q : List TxEntry) (b : Bool) : (setTx s q b).pending = s.pending := rfl
@[simp] theorem setTx_fifo (q : List TxEntry) (b : Bool) : (setTx s q b).fifo = s.fifo := rfl
@[simp] theorem setTx_ovfCount (q : List TxEntry) (b : Bool) : (setTx s q b).ovfCount = s.ovfCount := rfl
@[simp] theorem setTx_pin (q : List TxEntry) (b : Bool) : (setTx s q b).pin = s.pin := rfl
@[simp] theorem setTx_txQueue (q : List TxEntry) (b : Bool) : (setTx s q b).txQueue = q := rfl
@[simp] theorem setTx_txBusy (q : List TxEntry) (b : Bool) : (setTx s q b).txBusy = b := rfl
@[simp] theorem setTx_out (q : List TxEntry) (b : Bool) : (setTx s q b).out = s.out := rfl
@[simp] theorem setTx_trace (q : List TxEntry) (b : Bool) : (setTx s q b).trace = s.trace := rfl
@[simp] theorem setTx_parser (q : List TxEntry) (b : Bool) : (setTx s q b).parser = s.parser := rfl
@[simp] theorem setTx_params (q : List TxEntry) (b : Bool) : (setTx s q b).params = s.params := rfl
@[simp] theorem setTx_input (q : List TxEntry) (b : Bool) : (setTx s q b).input = s.input := rfl

/-! `setParser` -/

@[simp] theorem setParser_rxState (p : Parser) : (setParser s p).rxState = s.rxState := rfl
@[simp] theorem setParser_pending (p : Parser) : (setParser s p).pending = s.pending := rfl
@[simp] theorem setParser_fifo (p : Parser) : (setParser s p).fifo = s.fifo := rfl
@[simp] theorem setParser_ovfCount (p : Parser) : (setParser s p).ovfCount = s.ovfCount := rfl
@[simp] theorem setParser_pin (p : Parser) : (setParser s p).pin = s.pin := rfl
@[simp] theorem setParser_txQueue (p : Parser) : (setParser s p).txQueue = s.txQueue := rfl
@[simp] theorem setParser_txBusy (p : Parser) : (setParser s p).txBusy = s.txBusy := rfl
@[simp] theorem setParser_out (p : Parser) : (setParser s p).out = s.out := rfl
@[simp] theorem setParser_trace (p : Parser) : (setParser s p).trace = s.trace := rfl
@[simp] theorem setParser_parser (p : Parser) : (setParser s p).parser = p := rfl
@[simp] theorem setParser_params (p : Parser) : (setParser s p).params = s.params := rfl
@[simp] theorem setParser_input (p : Parser) : (setParser s p).input = s.input := rfl

/-! `setInput` -/

@[simp] theorem setInput_rxState (c : List Call) : (setInput s c).rxState = s.rxState := rfl
@[simp] theorem setInput_pending (c : List Call) : (setInput s c).pending = s.pending := rfl
@[simp] theorem setInput_fifo (c : List Call) : (setInput s c).fifo = s.fifo := rfl
@[simp] theorem setInput_ovfCount (c : List Call) : (setInput s c).ovfCount = s.ovfCount := rfl
@[simp] theorem setInput_pin (c : List Call) : (setInput s c).pin = s.pin := rfl
@[simp] theorem setInput_txQueue (c : List Call) : (setInput s c).txQueue = s.txQueue := rfl
@[simp] theorem setInput_txBusy (c : List Call) : (setInput s c).txBusy = s.txBusy := rfl
@[simp] theorem setInput_out (c : List Call) : (setInput s c).out = s.out := rfl
@[simp] theorem setInput_trace (c : List Call) : (setInput s c).trace = s.trace := rfl
@[simp] theorem setInput_parser (c : List Call) : (setInput s c).parser = s.parser := rfl
@[simp] theorem setInput_params (c : List Call) : (setInput s c).params = s.params := rfl
@[simp] theorem setInput_input (c : List Call) : (setInput s c).input = c := rfl

/-! `returning` -/

@[simp] theorem returning_rxState (r : Ret) : (returning s r).rxState = s.rxState := rfl
@[simp] theorem returning_pending (r : Ret) : (returning s r).pending = s.pending := rfl
@[simp] theorem returning_fifo (r : Ret) : (returning s r).fifo = s.fifo := rfl
@[simp] theorem returning_ovfCount (r : Ret) : (returning s r).ovfCount = s.ovfCount := rfl
@[simp] theorem returning_pin (r : Ret) : (returning s r).pin = s.pin := rfl
@[simp] theorem returning_txQueue (r : Ret) : (returning s r).txQueue = s.txQueue := rfl
@[simp] theorem returning_txBusy (r : Ret) : (returning s r).txBusy = s.txBusy := rfl
@[simp] theorem returning_out (r : Ret) : (returning s r).out = ({ ret := r } : Outputs) := rfl
@[simp] theorem returning_trace (r : Ret) : (returning s r).trace = s.trace := rfl
@[simp] theorem returning_parser (r : Ret) : (returning s r).parser = s.parser := rfl
@[simp] theorem returning_params (r : Ret) : (returning s r).params = s.params := rfl
@[simp] theorem returning_input (r : Ret) : (returning s r).input = s.input := rfl

/-! `rxAbort` -/

@[simp] theorem rxAbort_rxState : (rxAbort s).rxState = .unknown := rfl
@[simp] theorem rxAbort_pending : (rxAbort s).pending = none := rfl
@[simp] theorem rxAbort_fifo : (rxAbort s).fifo = s.fifo := rfl
@[simp] theorem rxAbort_ovfCount : (rxAbort s).ovfCount = s.ovfCount := rfl
@[simp] theorem rxAbort_pin : (rxAbort s).pin = s.pin := rfl
@[simp] theorem rxAbort_txQueue : (rxAbort s).txQueue = s.txQueue := rfl
@[simp] theorem rxAbort_txBusy : (rxAbort s).txBusy = s.txBusy := rfl
@[simp] theorem rxAbort_out : (rxAbort s).out = s.out := rfl
@[simp] theorem rxAbort_trace : (rxAbort s).trace = s.trace := rfl
@[simp] theorem rxAbort_parser : (rxAbort s).parser = s.parser := rfl
@[simp] theorem rxAbort_params : (rxAbort s).params = s.params := rfl
@[simp] theorem rxAbort_input : (rxAbort s).input = s.input := rfl

end Sys2Proof.Machine
end

