-- ==== Sys2Proof/Laws/Receive.lean ====
section
/-! SUPPORT. Laws/Receive.lean: once, everything a receive transition, a receive step and a receive row can do. -/

namespace Sys2Proof.Machine

/-! ### Transitions -/

/-- A pair that R66 does not list is a mismatch. -/
theorem rxNext_of_not_listed {st : RxState} {c : Category} {p : Pending} (h : listedPair st c p = false) :
    rxNext st c p = .mismatch := by
  cases st <;> cases c <;> rcases p with _ | (_ | _) <;> revert h <;> decide

/-- A listed pair leads to a state other than `Unknown`, and its category is valid. -/
theorem rxNext_of_listed {st : RxState} {c : Category} {p : Pending} (h : listedPair st c p = true) :
    (rxNext st c p).next ≠ .unknown ∧ c ≠ .inv := by
  cases st <;> cases c <;> rcases p with _ | (_ | _) <;> revert h <;> decide

/-- What a transition that emits has in common (R94, R95, R101, R106, R107): its pair is listed, it starts outside `Unknown`, on a valid
category, leads outside `Unknown`, and clears pending. -/
theorem rxNext_emits {st : RxState} {c : Category} {p : Pending} {t : Token} (h : (rxNext st c p).tok = some t) :
    st ≠ .unknown ∧ c ≠ .inv ∧ (rxNext st c p).next ≠ .unknown ∧ (rxNext st c p).pend = none := by
  have h : (rxNext st c p).tok.isSome = true := by rw [h]; rfl
  cases st <;> cases c <;> rcases p with _ | (_ | _) <;> revert h <;> decide

/-- A transition keeps R22: a bit is pending after it exactly when its target is one of the four states with a bit in progress. -/
theorem rxNext_pending {st : RxState} {c : Category} {p : Pending} (h : p.isSome = bitInProgress st) :
    (rxNext st c p).pend.isSome = bitInProgress (rxNext st c p).next := by
  cases st <;> cases c <;> rcases p with _ | (_ | _) <;> revert h <;> decide

/-! ### The buffer's fullness -/

theorem fifoFull_of_room {s : State} (h : s.fifo.length < s.params.tokenCap) : fifoFull s = false :=
  decide_eq_false (Nat.not_le.mpr h)

theorem fifoFull_of_full {s : State} (h : ¬s.fifo.length < s.params.tokenCap) : fifoFull s = true :=
  decide_eq_true (Nat.not_lt.mp h)

/-! ### Steps -/

/-- A step whose transition emits nothing. -/
theorem rxStep_silent (c : Category) (info : PulseInfo) (s : State) (h : (rxNext s.rxState c s.pending).tok = none) :
    rxStep c info s =
      { s with
        rxState := (rxNext s.rxState c s.pending).next
        pending := (rxNext s.rxState c s.pending).pend
        out :=
          { frameEnd := frameEndOf s.rxState (rxNext s.rxState c s.pending).next
            invalidPulse := invalidEvent c info
            desync :=
              if frameEndOf s.rxState (rxNext s.rxState c s.pending).next then some (s.rxState, c) else none } } := by
  simp only [rxStep, rxCommit, h]
  rfl

/-- A step whose transition emits a token (R114). -/
theorem rxStep_emits (c : Category) (info : PulseInfo) (s : State) {t : Token}
    (h : (rxNext s.rxState c s.pending).tok = some t) :
    rxStep c info s = emitted s t (rxNext s.rxState c s.pending).next := by
  obtain ⟨hs, hc, hn, hp⟩ := rxNext_emits h
  have hold : frameEndOf s.rxState .unknown = true := by simp [frameEndOf, hs]
  have hnew : frameEndOf s.rxState (rxNext s.rxState c s.pending).next = false := by simp [frameEndOf, hn]
  have hinv : invalidEvent c info = none := by simp [invalidEvent, hc]
  by_cases room : s.fifo.length < s.params.tokenCap
  · have hfull := fifoFull_of_room room
    simp [rxStep, rxCommit, h, hfull, pushOrDrop, emitted, room, hnew, hinv, hp, setOut, setRx, fifoPush]
  · have hfull := fifoFull_of_full room
    simp [rxStep, rxCommit, h, hfull, pushOrDrop, emitted, room, hold, hinv, setOut, setRx, rxAbort, countDrop, ovfNext,
      Params.ovfMax]

/-- A step on a listed pair that emits nothing: no event and no `frame_end`. -/
theorem rxStep_moves (c : Category) (info : PulseInfo) (s : State) (hl : listedPair s.rxState c s.pending = true)
    (h : (rxNext s.rxState c s.pending).tok = none) :
    rxStep c info s = moved s (rxNext s.rxState c s.pending).next (rxNext s.rxState c s.pending).pend := by
  obtain ⟨hn, hc⟩ := rxNext_of_listed hl
  rw [rxStep_silent c info s h]
  simp [moved, frameEndOf, hn, invalidEvent, hc]

/-- A step on a pair that is not listed: to `Unknown`, with `frame_end` and `Desync` unless it was there. -/
theorem rxStep_mismatch (c : Category) (info : PulseInfo) (s : State) (hl : listedPair s.rxState c s.pending = false) :
    rxStep c info s =
      { s with
        rxState := .unknown
        pending := none
        out :=
          { frameEnd := s.rxState != .unknown
            invalidPulse := invalidEvent c info
            desync := if s.rxState != .unknown then some (s.rxState, c) else none } } := by
  have h := rxNext_of_not_listed hl
  rw [rxStep_silent c info s (by rw [h]; rfl), h]
  simp [frameEndOf, RxResult.mismatch]

/-- Everything a receive step can do: a listed move, a listed emission, or a mismatch. -/
theorem rxStep_cases (c : Category) (info : PulseInfo) (s : State) :
    (∃ n p, rxNext s.rxState c s.pending = .go n p ∧ listedPair s.rxState c s.pending = true ∧ rxStep c info s = moved s n p) ∨
    (∃ n t, rxNext s.rxState c s.pending = .emit n t ∧ listedPair s.rxState c s.pending = true ∧
      rxStep c info s = emitted s t n) ∨
    (listedPair s.rxState c s.pending = false ∧
      rxStep c info s =
        { s with
          rxState := .unknown
          pending := none
          out :=
            { frameEnd := s.rxState != .unknown
              invalidPulse := invalidEvent c info
              desync := if s.rxState != .unknown then some (s.rxState, c) else none } }) := by
  cases hl : listedPair s.rxState c s.pending with
  | false => exact .inr (.inr ⟨rfl, rxStep_mismatch c info s hl⟩)
  | true =>
    cases ht : (rxNext s.rxState c s.pending).tok with
    | none =>
      refine .inl ⟨_, _, ?_, rfl, rxStep_moves c info s hl ht⟩
      cases hr : rxNext s.rxState c s.pending
      simp_all [RxResult.go]
    | some t =>
      refine .inr (.inl ⟨_, t, ?_, rfl, rxStep_emits c info s ht⟩)
      have hp := (rxNext_emits ht).2.2.2
      cases hr : rxNext s.rxState c s.pending
      simp_all [RxResult.emit]

/-- A listed transition that emits nothing, by its result. -/
theorem rxStep_go {s : State} {c : Category} {n : RxState} {p : Pending} (info : PulseInfo)
    (hl : listedPair s.rxState c s.pending = true) (h : rxNext s.rxState c s.pending = .go n p) :
    rxStep c info s = moved s n p := by
  rw [rxStep_moves c info s hl (by rw [h]; rfl), h]
  rfl

/-- A transition that emits, by its result. -/
theorem rxStep_emit {s : State} {c : Category} {n : RxState} {t : Token} (info : PulseInfo)
    (h : rxNext s.rxState c s.pending = .emit n t) : rxStep c info s = emitted s t n := by
  rw [rxStep_emits c info s (t := t) (by rw [h]; rfl), h]
  rfl

/-- What `InvalidPulse` records is all that a receive step takes from `info`. -/
theorem rxStep_info (c : Category) (info : PulseInfo) (s : State) :
    rxStep c .categoryOnly s =
      { rxStep c info s with
        out := { (rxStep c info s).out with
          invalidPulse := (rxStep c info s).out.invalidPulse.map fun _ => .categoryOnly } } := by
  obtain ⟨n, p, -, hl, h⟩ | ⟨n, t, -, hl, h⟩ | ⟨hl, h⟩ := rxStep_cases c info s
  · have h' : rxStep c .categoryOnly s = rxStep c info s := by
      cases ht : (rxNext s.rxState c s.pending).tok with
      | none => rw [rxStep_moves c _ s hl ht, rxStep_moves c _ s hl ht]
      | some t => rw [rxStep_emits c _ s ht, rxStep_emits c _ s ht]
    rw [h', h]; rfl
  · have h' : rxStep c .categoryOnly s = rxStep c info s := by
      cases ht : (rxNext s.rxState c s.pending).tok with
      | none => rw [rxStep_moves c _ s hl ht, rxStep_moves c _ s hl ht]
      | some t => rw [rxStep_emits c _ s ht, rxStep_emits c _ s ht]
    rw [h', h]; unfold emitted; split <;> rfl
  · rw [h, rxStep_mismatch c .categoryOnly s hl]
    by_cases hc : c = .inv <;> simp [invalidEvent, hc]

/-! ### Rows -/

/-- A row whose result is the transition's, where it applies, is the receive step of its category in every state. -/
theorem rxRow_eq_rxStep {applies : Bool} {c : Category} {r : RxResult} {s : State}
    (h : applies = true → r = rxNext s.rxState c s.pending) : rxRow applies c r s = rxStep c .categoryOnly s := by
  cases applies with
  | false => rfl
  | true => rw [h rfl]; rfl

theorem execUnknownL5_eq (p : Pending) (s : State) : execUnknownL5 p s = .next (rxStep .l5 .categoryOnly s) :=
  congrArg _ (rxRow_eq_rxStep fun h => by simp_all [rxNext])

theorem execSynca1H1_eq (p : Pending) (s : State) : execSynca1H1 p s = .next (rxStep .h1 .categoryOnly s) :=
  congrArg _ (rxRow_eq_rxStep fun h => by simp_all [rxNext])

theorem execSynca2L3_eq (p : Pending) (s : State) : execSynca2L3 p s = .next (rxStep .l3 .categoryOnly s) :=
  congrArg _ (rxRow_eq_rxStep fun h => by simp_all [rxNext])

theorem execSynca2L2_eq (p : Pending) (s : State) : execSynca2L2 p s = .next (rxStep .l2 .categoryOnly s) :=
  congrArg _ (rxRow_eq_rxStep fun h => by simp_all [rxNext])

theorem execSynca3H1_eq (p : Pending) (s : State) : execSynca3H1 p s = .next (rxStep .h1 .categoryOnly s) :=
  congrArg _ (rxRow_eq_rxStep fun h => by simp_all [rxNext])

theorem execBita0L2_eq (p : Pending) (s : State) : execBita0L2 p s = .next (rxStep .l2 .categoryOnly s) :=
  congrArg _ (rxRow_eq_rxStep fun h => by simp_all [rxNext])

theorem execBita0L1_eq (p : Pending) (s : State) : execBita0L1 p s = .next (rxStep .l1 .categoryOnly s) :=
  congrArg _ (rxRow_eq_rxStep fun h => by simp_all [rxNext])

theorem execBita1H1_eq (p : Pending) (s : State) : execBita1H1 p s = .next (rxStep .h1 .categoryOnly s) :=
  congrArg _ (rxRow_eq_rxStep fun h => by simp_all [rxNext])

theorem execBita2L1P1_eq (s : State) : execBita2L1P1 s = .next (rxStep .l1 .categoryOnly s) :=
  congrArg _ (rxRow_eq_rxStep fun h => by simp_all [rxNext])

theorem execBita2L2P0_eq (s : State) : execBita2L2P0 s = .next (rxStep .l2 .categoryOnly s) :=
  congrArg _ (rxRow_eq_rxStep fun h => by simp_all [rxNext])

theorem execBita3H1_eq (b : Bool) (s : State) : execBita3H1 b s = .next (rxStep .h1 .categoryOnly s) :=
  congrArg _ (rxRow_eq_rxStep fun h => by simp_all [rxNext])

theorem execBitb0H1_eq (p : Pending) (s : State) : execBitb0H1 p s = .next (rxStep .h1 .categoryOnly s) :=
  congrArg _ (rxRow_eq_rxStep fun h => by simp_all [rxNext])

theorem execBitb1L2_eq (p : Pending) (s : State) : execBitb1L2 p s = .next (rxStep .l2 .categoryOnly s) :=
  congrArg _ (rxRow_eq_rxStep fun h => by simp_all [rxNext])

theorem execBitb2H2_eq (p : Pending) (s : State) : execBitb2H2 p s = .next (rxStep .h2 .categoryOnly s) :=
  congrArg _ (rxRow_eq_rxStep fun h => by simp_all [rxNext])

theorem execBitb2H1_eq (p : Pending) (s : State) : execBitb2H1 p s = .next (rxStep .h1 .categoryOnly s) :=
  congrArg _ (rxRow_eq_rxStep fun h => by simp_all [rxNext])

theorem execBitb3L1P1_eq (s : State) : execBitb3L1P1 s = .next (rxStep .l1 .categoryOnly s) :=
  congrArg _ (rxRow_eq_rxStep fun h => by simp_all [rxNext])

theorem execBitb3L2P0_eq (s : State) : execBitb3L2P0 s = .next (rxStep .l2 .categoryOnly s) :=
  congrArg _ (rxRow_eq_rxStep fun h => by simp_all [rxNext])

theorem execUnknownOther_eq (c : Category) (p : Pending) (s : State) :
    execUnknownOther c p s = .next (rxStep c .categoryOnly s) :=
  congrArg _ (rxRow_eq_rxStep fun h => by
    refine (rxNext_of_not_listed ?_).symm
    simp only [Bool.and_eq_true, beq_iff_eq, bne_iff_ne] at h
    simp [h.1, h.2, listedPair])

theorem execDflt_eq (st : RxState) (c : Category) (p : Pending) (s : State) :
    execDflt st c p s = .next (rxStep c .categoryOnly s) :=
  congrArg _ (rxRow_eq_rxStep fun h => by
    refine (rxNext_of_not_listed ?_).symm
    simp only [Bool.and_eq_true, Bool.not_eq_true', transitionDefined] at h
    exact h.2)

theorem exec_pulse (d : Int) (s : State) : exec (.pulse d) s = .next (rxStep (classify d) (.duration d) s) := rfl

/-- Every receive row is the receive step of its category, in every state. -/
theorem exec_receiveRow {i : Instr} {c : Category} (h : rowCategoryOf i = some c) (s : State) :
    exec i s = .next (rxStep c .categoryOnly s) := by
  cases i <;> simp only [rowCategoryOf, Option.some.injEq, reduceCtorEq] at h <;> subst h
  · exact execUnknownL5_eq ‹Pending› s
  · exact execSynca1H1_eq ‹Pending› s
  · exact execSynca2L3_eq ‹Pending› s
  · exact execSynca2L2_eq ‹Pending› s
  · exact execSynca3H1_eq ‹Pending› s
  · exact execBita0L2_eq ‹Pending› s
  · exact execBita0L1_eq ‹Pending› s
  · exact execBita1H1_eq ‹Pending› s
  · exact execBita2L1P1_eq s
  · exact execBita2L2P0_eq s
  · exact execBita3H1_eq ‹Bool› s
  · exact execBitb0H1_eq ‹Pending› s
  · exact execBitb1L2_eq ‹Pending› s
  · exact execBitb2H2_eq ‹Pending› s
  · exact execBitb2H1_eq ‹Pending› s
  · exact execBitb3L1P1_eq s
  · exact execBitb3L2P0_eq s
  · exact execUnknownOther_eq _ ‹Pending› s
  · exact execDflt_eq ‹RxState› _ ‹Pending› s

/-- The row `PULSE.PUSH_OR_DROP` is the end of an emitting step (R114). -/
theorem execPulsePushOrDrop_eq (e : Emission) (s : State) :
    execPulsePushOrDrop e s = .next (emitted s (emissionResult e).1 (emissionResult e).2) := by
  by_cases room : s.fifo.length < s.params.tokenCap
  · have hfull := fifoFull_of_room room
    simp [execPulsePushOrDrop, hfull, pushOrDrop, emitted, room, setOut, setRx, fifoPush]
  · have hfull := fifoFull_of_full room
    simp [execPulsePushOrDrop, hfull, pushOrDrop, emitted, room, setOut, setRx, rxAbort, countDrop, ovfNext, Params.ovfMax]

end Sys2Proof.Machine
end

