-- ==== Sys2Proof/Laws/Buffer.lean ====
section
/-! SUPPORT. Laws/Buffer.lean: the buffer's bound (R23, R135(a)), the counter's width (R25) and R22 are kept by every operation on the
receive side. -/

namespace Sys2Proof.Machine

/-- A push with room keeps the bound. -/
theorem fifoPush_bound {s : State} (t : Token) (h : fifoFull s = false) :
    (fifoPush s t).fifo.length ≤ (fifoPush s t).params.tokenCap := by
  have h : ¬s.params.tokenCap ≤ s.fifo.length := of_decide_eq_false h
  simp only [fifoPush, List.length_append, List.length_singleton]
  omega

/-- A pop keeps the bound. -/
theorem fifoDrop_bound {s : State} (h : s.fifo.length ≤ s.params.tokenCap) :
    (fifoDrop s).fifo.length ≤ (fifoDrop s).params.tokenCap := by
  simp only [fifoDrop, List.length_tail]
  omega

/-- Counting a drop keeps the counter's width. -/
theorem countDrop_bound (s : State) : (countDrop s).ovfCount ≤ (countDrop s).params.ovfMax := Nat.min_le_right _ _

/-- The end of an emitting step keeps the receive side's invariant, whatever `pending` was: it clears it (R114). -/
theorem rxInv_emitted {s : State} (t : Token) {next : RxState} (hn : bitInProgress next = false)
    (hf : s.fifo.length ≤ s.params.tokenCap) (ho : s.ovfCount ≤ s.params.ovfMax) : RxInv (emitted s t next) := by
  unfold emitted
  split
  · rename_i room
    refine ⟨by simp [hn], ?_, ho⟩
    simp only [List.length_append, List.length_singleton]
    omega
  · exact ⟨rfl, hf, Nat.min_le_right _ _⟩

/-- A target of an emission has no bit in progress. -/
theorem rxNext_emit_target {st : RxState} {c : Category} {p : Pending} {n : RxState} {t : Token} (h : rxNext st c p = .emit n t) :
    bitInProgress n = false := by
  have h' : bitInProgress (rxNext st c p).next = false := by
    have h2 : (rxNext st c p).tok.isSome = true := by rw [h]; rfl
    clear h
    cases st <;> cases c <;> rcases p with _ | (_ | _) <;> revert h2 <;> decide
  rw [h] at h'
  exact h'

/-- Every receive step keeps the receive side's invariant. -/
theorem rxInv_rxStep {s : State} (c : Category) (info : PulseInfo) (h : RxInv s) : RxInv (rxStep c info s) := by
  obtain ⟨hp, hf, ho⟩ := h
  obtain ⟨n, p, hr, -, e⟩ | ⟨n, t, hr, -, e⟩ | ⟨-, e⟩ := rxStep_cases c info s
  · rw [e]
    have := rxNext_pending (c := c) hp
    rw [hr] at this
    exact ⟨this, hf, ho⟩
  · rw [e]
    exact rxInv_emitted t (rxNext_emit_target hr) hf ho
  · rw [e]
    exact ⟨rfl, hf, ho⟩

/-- The target of every emission has no bit in progress. -/
theorem emissionResult_target (e : Emission) : bitInProgress (emissionResult e).2 = false := by
  rcases e with _ | _ | b | b <;> rfl

end Sys2Proof.Machine
end

