-- ==== Sys2Proof/Laws/Decode.lean ====
section
/-! SUPPORT. Laws/Decode.lean: the small laws of the codes and of the packed words. -/

namespace Sys2Proof

@[simp] theorem RxState.ofCode_code (st : RxState) : RxState.ofCode st.code = some st := by cases st <;> rfl

@[simp] theorem Category.ofCode_code (c : Category) : Category.ofCode c.code = some c := by cases c <;> rfl

@[simp] theorem pendingOfCode_pendingCode (p : Pending) : pendingOfCode (pendingCode p) = some p := by
  rcases p with _ | (_ | _) <;> rfl

@[simp] theorem Token.ofByte_byte (t : Token) : Token.ofByte t.byte = some t := by
  rcases t with _ | _ | (_ | _) <;> rfl

@[simp] theorem Emission.ofCode_code (e : Emission) : Emission.ofCode e.code = some e := by
  rcases e with _ | _ | (_ | _) | (_ | _) <;> rfl

@[simp] theorem Version.ofCode_code (v : Version) : Version.ofCode v.code = some v := by cases v <;> rfl

/-- A version code other than 1 and 2 names no format (R59). -/
theorem Version.ofCode_none {v : BitVec 4} (h1 : v ≠ 1) (h2 : v ≠ 2) : Version.ofCode v = none := by
  have : ∀ n : Fin 16, BitVec.ofFin n ≠ (1 : BitVec 4) → BitVec.ofFin n ≠ (2 : BitVec 4) → Version.ofCode (BitVec.ofFin n) = none := by
    decide
  exact this v.toFin h1 h2

/-! ### Fields of the words -/

/-- A field that lies in the upper part of a concatenation. -/
theorem extract_append_high {w v : Nat} (x : BitVec w) (y : BitVec v) (k n : Nat) :
    (x ++ y).extractLsb' (v + k) n = x.extractLsb' k n := by
  ext i hi
  simp [BitVec.getLsbD_append, show ¬v + k + i < v by omega, show v + k + i - v = k + i by omega]

/-- A field that lies in the lower part. -/
theorem extract_append_low {w v : Nat} (x : BitVec w) (y : BitVec v) {k n : Nat} (h : k + n ≤ v) :
    (x ++ y).extractLsb' k n = y.extractLsb' k n := by
  ext i hi
  simp [BitVec.getLsbD_append, show k + i < v by omega]

theorem extract_all {w : Nat} (x : BitVec w) : x.extractLsb' 0 w = x := by
  ext i hi
  simp

theorem getLsbD_append_high {w v : Nat} (x : BitVec w) (y : BitVec v) (k : Nat) : (x ++ y).getLsbD (v + k) = x.getLsbD k := by
  simp [BitVec.getLsbD_append]

theorem getLsbD_append_low {w v : Nat} (x : BitVec w) (y : BitVec v) {k : Nat} (h : k < v) :
    (x ++ y).getLsbD k = y.getLsbD k := by
  simp [BitVec.getLsbD_append, h]

theorem key_state (a b : BitVec 4) (c : BitVec 2) : (a ++ b ++ c : BitVec 10).extractLsb' 6 4 = a :=
  (extract_append_high (a ++ b) c 4 4).trans ((extract_append_high a b 0 4).trans (extract_all a))

theorem key_category (a b : BitVec 4) (c : BitVec 2) : (a ++ b ++ c : BitVec 10).extractLsb' 2 4 = b :=
  (extract_append_high (a ++ b) c 0 4).trans ((extract_append_low a b (by decide)).trans (extract_all b))

theorem key_pending (a b : BitVec 4) (c : BitVec 2) : (a ++ b ++ c : BitVec 10).extractLsb' 0 2 = c :=
  (extract_append_low (a ++ b) c (by decide)).trans (extract_all c)

/-- A receive key decodes to the row of its three fields. -/
theorem decodeKey_keyOf (st : RxState) (c : Category) (p : Pending) : decodeKey (keyOf st c p) = .ok (rxRowOf st c p) := by
  simp [decodeKey, keyOf, key_state, key_category, key_pending]

theorem cmdVersion_packCmd (v : BitVec 4) (f : CmdFields) : cmdVersion (packCmd v f) = v :=
  (extract_append_high (v ++ f.device ++ BitVec.ofBool f.group ++ f.channel) (BitVec.ofBool f.state) 29 4).trans
    ((extract_append_high (v ++ f.device ++ BitVec.ofBool f.group) f.channel 25 4).trans
      ((extract_append_high (v ++ f.device) (BitVec.ofBool f.group) 24 4).trans
        ((extract_append_high v f.device 0 4).trans (extract_all v))))

theorem packCmd_device (v : BitVec 4) (f : CmdFields) : (packCmd v f).extractLsb' 6 24 = f.device :=
  (extract_append_high (v ++ f.device ++ BitVec.ofBool f.group ++ f.channel) (BitVec.ofBool f.state) 5 24).trans
    ((extract_append_high (v ++ f.device ++ BitVec.ofBool f.group) f.channel 1 24).trans
      ((extract_append_high (v ++ f.device) (BitVec.ofBool f.group) 0 24).trans
        ((extract_append_low v f.device (by decide)).trans (extract_all f.device))))

theorem packCmd_channel (v : BitVec 4) (f : CmdFields) : (packCmd v f).extractLsb' 1 4 = f.channel :=
  (extract_append_high (v ++ f.device ++ BitVec.ofBool f.group ++ f.channel) (BitVec.ofBool f.state) 0 4).trans
    ((extract_append_low (v ++ f.device ++ BitVec.ofBool f.group) f.channel (by decide)).trans (extract_all f.channel))

theorem ofBool_bit (b : Bool) : (BitVec.ofBool b).getLsbD 0 = b := by cases b <;> rfl

theorem packCmd_group (v : BitVec 4) (f : CmdFields) : (packCmd v f).getLsbD 5 = f.group :=
  (getLsbD_append_high (v ++ f.device ++ BitVec.ofBool f.group ++ f.channel) (BitVec.ofBool f.state) 4).trans
    ((getLsbD_append_high (v ++ f.device ++ BitVec.ofBool f.group) f.channel 0).trans
      ((getLsbD_append_low (v ++ f.device) (BitVec.ofBool f.group) (by decide)).trans (ofBool_bit f.group)))

theorem packCmd_state (v : BitVec 4) (f : CmdFields) : (packCmd v f).getLsbD 0 = f.state :=
  (getLsbD_append_low (v ++ f.device ++ BitVec.ofBool f.group ++ f.channel) (BitVec.ofBool f.state) (by decide)).trans
    (ofBool_bit f.state)

theorem cmdFields_packCmd (v : BitVec 4) (f : CmdFields) : cmdFields (packCmd v f) = f := by
  rw [cmdFields, packCmd_device, packCmd_channel, packCmd_group, packCmd_state]

/-- A Legacy12 frame word decodes to its fields (R61). -/
theorem decodeFrame12_word (device : BitVec 8) (state : Bool) :
    decodeFrame12 (device ++ 0b011#3 ++ BitVec.ofBool state) = .ok (.frame12 device state) := by
  have hm : (device ++ 0b011#3 ++ BitVec.ofBool state : BitVec 12).extractLsb' 1 3 = 0b011#3 :=
    (extract_append_high (device ++ 0b011#3) (BitVec.ofBool state) 0 3).trans
      ((extract_append_low device 0b011#3 (by decide)).trans (extract_all _))
  have hd : (device ++ 0b011#3 ++ BitVec.ofBool state : BitVec 12).extractLsb' 4 8 = device :=
    (extract_append_high (device ++ 0b011#3) (BitVec.ofBool state) 3 8).trans
      ((extract_append_high device 0b011#3 0 8).trans (extract_all _))
  have hs : (device ++ 0b011#3 ++ BitVec.ofBool state : BitVec 12).getLsbD 0 = state :=
    (getLsbD_append_low (device ++ 0b011#3) (BitVec.ofBool state) (by decide)).trans (ofBool_bit state)
  unfold decodeFrame12
  rw [if_pos hm, hd, hs]

/-- A Modern32 frame word decodes to its fields (R62). -/
theorem decodeFrame32_word (f : CmdFields) :
    decodeFrame32 (f.device ++ 0b10#2 ++ BitVec.ofBool f.group ++ BitVec.ofBool f.state ++ f.channel) = .ok (.frame32 f) := by
  have hm : (f.device ++ 0b10#2 ++ BitVec.ofBool f.group ++ BitVec.ofBool f.state ++ f.channel : BitVec 32).extractLsb' 6 2
      = 0b10#2 :=
    (extract_append_high (f.device ++ 0b10#2 ++ BitVec.ofBool f.group ++ BitVec.ofBool f.state) f.channel 2 2).trans
      ((extract_append_high (f.device ++ 0b10#2 ++ BitVec.ofBool f.group) (BitVec.ofBool f.state) 1 2).trans
        ((extract_append_high (f.device ++ 0b10#2) (BitVec.ofBool f.group) 0 2).trans
          ((extract_append_low f.device 0b10#2 (by decide)).trans (extract_all _))))
  have hd : (f.device ++ 0b10#2 ++ BitVec.ofBool f.group ++ BitVec.ofBool f.state ++ f.channel : BitVec 32).extractLsb' 8 24
      = f.device :=
    (extract_append_high (f.device ++ 0b10#2 ++ BitVec.ofBool f.group ++ BitVec.ofBool f.state) f.channel 4 24).trans
      ((extract_append_high (f.device ++ 0b10#2 ++ BitVec.ofBool f.group) (BitVec.ofBool f.state) 3 24).trans
        ((extract_append_high (f.device ++ 0b10#2) (BitVec.ofBool f.group) 2 24).trans
          ((extract_append_high f.device 0b10#2 0 24).trans (extract_all _))))
  have hg : (f.device ++ 0b10#2 ++ BitVec.ofBool f.group ++ BitVec.ofBool f.state ++ f.channel : BitVec 32).getLsbD 5
      = f.group :=
    (getLsbD_append_high (f.device ++ 0b10#2 ++ BitVec.ofBool f.group ++ BitVec.ofBool f.state) f.channel 1).trans
      ((getLsbD_append_high (f.device ++ 0b10#2 ++ BitVec.ofBool f.group) (BitVec.ofBool f.state) 0).trans
        ((getLsbD_append_low (f.device ++ 0b10#2) (BitVec.ofBool f.group) (by decide)).trans (ofBool_bit _)))
  have hs : (f.device ++ 0b10#2 ++ BitVec.ofBool f.group ++ BitVec.ofBool f.state ++ f.channel : BitVec 32).getLsbD 4
      = f.state :=
    (getLsbD_append_high (f.device ++ 0b10#2 ++ BitVec.ofBool f.group ++ BitVec.ofBool f.state) f.channel 0).trans
      ((getLsbD_append_low (f.device ++ 0b10#2 ++ BitVec.ofBool f.group) (BitVec.ofBool f.state) (by decide)).trans
        (ofBool_bit _))
  have hc : (f.device ++ 0b10#2 ++ BitVec.ofBool f.group ++ BitVec.ofBool f.state ++ f.channel : BitVec 32).extractLsb' 0 4
      = f.channel :=
    (extract_append_low (f.device ++ 0b10#2 ++ BitVec.ofBool f.group ++ BitVec.ofBool f.state) f.channel (by decide)).trans
      (extract_all _)
  unfold decodeFrame32
  rw [if_pos hm, hd, hg, hs, hc]

end Sys2Proof
end

