-- ==== Sys2Proof/Laws/Operands.lean ====
section
/-! SUPPORT. Laws/Operands.lean: the small laws of the classifier, of frame bits and of the text line's characters. -/

namespace Sys2Proof.Machine

/-! ### The classifier -/

@[simp] theorem signedCategory_zero (level : Level) : signedCategory level 0 = .inv := by cases level <;> rfl

@[simp] theorem magnitude_zero : magnitude 0 = 0 := rfl

/-- A pulse of a level and a magnitude classifies by its magnitude's bucket, with its level as the sign. -/
theorem classify_signedDuration (level : Level) (p : Nat) :
    classify (signedDuration level p) = signedCategory level (magnitude p) := by
  rcases Nat.eq_zero_or_pos p with rfl | hp
  · cases level <;> rfl
  · cases level
    · have : polarity (p : Int) = .high := if_pos (by omega)
      simp only [classify, signedDuration, this, Int.natAbs_natCast]
    · have : polarity (-(p : Int)) = .low := if_neg (by omega)
      simp only [classify, signedDuration, this, Int.natAbs_neg, Int.natAbs_natCast]

theorem classify_ofNat (p : Nat) : classify (p : Int) = signedCategory .high (magnitude p) :=
  classify_signedDuration .high p

theorem classify_neg (p : Nat) : classify (-(p : Int)) = signedCategory .low (magnitude p) :=
  classify_signedDuration .low p

/-- The buckets with their bounds written out (R6, R80 to R82). -/
theorem magnitude_eq (p : Nat) :
    magnitude p =
      if p = 0 then 0 else if 16384 ≤ p then 0 else if p < 512 then 1 else if p < 2048 then 2 else if p < 4096 then 3
      else if p < 8192 then 4 else 5 := rfl

theorem magnitude_one {p : Nat} (h : 1 ≤ p) (h' : p < 512) : magnitude p = 1 := by
  rw [magnitude_eq]
  repeat' split
  all_goals omega

theorem magnitude_two {p : Nat} (h : 512 ≤ p) (h' : p < 2048) : magnitude p = 2 := by
  rw [magnitude_eq]
  repeat' split
  all_goals omega

theorem magnitude_three {p : Nat} (h : 2048 ≤ p) (h' : p < 4096) : magnitude p = 3 := by
  rw [magnitude_eq]
  repeat' split
  all_goals omega

theorem magnitude_four {p : Nat} (h : 4096 ≤ p) (h' : p < 8192) : magnitude p = 4 := by
  rw [magnitude_eq]
  repeat' split
  all_goals omega

theorem magnitude_five {p : Nat} (h : 8192 ≤ p) (h' : p < 16384) : magnitude p = 5 := by
  rw [magnitude_eq]
  repeat' split
  all_goals omega

theorem magnitude_invalid {p : Nat} (h : 16384 ≤ p) : magnitude p = 0 := by
  rw [magnitude_eq]
  repeat' split
  all_goals omega

/-- A magnitude is at most 5. -/
theorem magnitude_le (p : Nat) : magnitude p ≤ 5 := by
  rw [magnitude_eq]
  repeat' split
  all_goals omega

/-! ### Frame bits -/

@[simp] theorem msbFirst_length {w : Nat} (v : BitVec w) : (msbFirst v).length = w := by simp [msbFirst]

/-- Bit `i` of a field in time order is its bit `w - 1 - i` (R61, R62). -/
theorem msbFirst_getElem? {w : Nat} (v : BitVec w) {i : Nat} (h : i < w) : (msbFirst v)[i]? = some (v.getLsbD (w - 1 - i)) := by
  simp [msbFirst, h, BitVec.getMsbD]

theorem ofBits_append (xs : List Bool) (b : Bool) : ofBits (xs ++ [b]) = 2 * ofBits xs + b.toNat := by
  simp [ofBits]

/-- A list of bits is a number below 2 to its length. -/
theorem ofBits_lt (bits : List Bool) : ofBits bits < 2 ^ bits.length := by
  induction bits using List.reverseRecOn with
  | nil => decide
  | append_singleton xs b ih =>
    rw [ofBits_append, List.length_append, List.length_singleton, pow_succ]
    have : b.toNat ≤ 1 := Bool.toNat_le b
    omega

/-- Bit `i` of a list of bits, counted in time order, is bit `length - 1 - i` of its number. -/
theorem ofBits_testBit (bits : List Bool) {i : Nat} (h : i < bits.length) :
    (ofBits bits).testBit (bits.length - 1 - i) = bits[i] := by
  induction bits using List.reverseRecOn with
  | nil => simp at h
  | append_singleton xs b ih =>
    rw [ofBits_append]
    by_cases hi : i < xs.length
    · have e : (xs ++ [b]).length - 1 - i = (xs.length - 1 - i) + 1 := by simp; omega
      rw [e, Nat.testBit_succ, List.getElem_append_left hi, ← ih hi]
      congr 1
      have : b.toNat ≤ 1 := Bool.toNat_le b
      omega
    · have hi' : i = xs.length := by simp at h; omega
      subst hi'
      simp only [List.length_append, List.length_singleton, Nat.add_sub_cancel, Nat.sub_self, Nat.testBit_zero,
        List.getElem_concat_length]
      cases b <;> simp [Nat.add_mod]

/-- The number of a field's bits in time order is the field (R185, R186). -/
theorem ofBits_msbFirst {w : Nat} (v : BitVec w) : ofBits (msbFirst v) = v.toNat := by
  refine Nat.eq_of_testBit_eq fun j => ?_
  by_cases h : j < w
  · have h' : w - 1 - j < (msbFirst v).length := by rw [msbFirst_length]; omega
    have := ofBits_testBit (msbFirst v) h'
    rw [msbFirst_length] at this
    have e : w - 1 - (w - 1 - j) = j := by omega
    rw [e] at this
    rw [this]
    have g := msbFirst_getElem? v (i := w - 1 - j) (by omega)
    rw [List.getElem?_eq_getElem h', e] at g
    rw [Option.some.inj g, BitVec.testBit_toNat]
  · have hl := ofBits_lt (msbFirst v)
    rw [msbFirst_length] at hl
    have : 2 ^ w ≤ 2 ^ j := Nat.pow_le_pow_right (by decide) (by omega)
    rw [Nat.testBit_lt_two_pow (by omega), Nat.testBit_lt_two_pow (by have := v.isLt; omega)]

/-! ### Characters -/

/-- A printed hex digit reads back (R192). -/
theorem hexValue_hexChar {n : Nat} (h : n < 16) : hexValue (hexChar n) = some n := by
  have : ∀ m : Fin 16, hexValue (hexChar m.val) = some m.val := by decide
  exact this ⟨n, h⟩

theorem boolValue_boolChar (b : Bool) : boolValue (boolChar b) = some b := by cases b <;> rfl

theorem versionValue_versionChar (v : Version) : versionValue (versionChar v) = some v := by cases v <;> rfl

/-- A character has a hex value exactly when it is `[0-9A-Fa-f]` (R191). -/
theorem hexValue_isSome (ch : Byte) : (hexValue ch).isSome = isHexChar ch := by
  simp only [hexValue, isHexChar]
  generalize ch.toNat = n
  split_ifs <;> simp <;> omega

theorem boolValue_isSome (ch : Byte) : (boolValue ch).isSome = isBitChar ch := by
  by_cases h0 : ch = 0x30
  · subst h0; rfl
  by_cases h1 : ch = 0x31
  · subst h1; rfl
  have n0 : ch.toNat ≠ 0x30 := fun h => h0 (BitVec.eq_of_toNat_eq h)
  have n1 : ch.toNat ≠ 0x31 := fun h => h1 (BitVec.eq_of_toNat_eq h)
  have : boolValue ch = none := by
    unfold boolValue
    split
    · contradiction
    · contradiction
    · rfl
  rw [this]
  simpa [isBitChar] using And.intro h0 h1

theorem versionValue_isSome (ch : Byte) : (versionValue ch).isSome = (ch == 0x31 || ch == 0x32) := by
  by_cases h1 : ch = 0x31
  · subst h1; rfl
  by_cases h2 : ch = 0x32
  · subst h2; rfl
  have n1 : ch.toNat ≠ 0x31 := fun h => h1 (BitVec.eq_of_toNat_eq h)
  have n2 : ch.toNat ≠ 0x32 := fun h => h2 (BitVec.eq_of_toNat_eq h)
  have : versionValue ch = none := by
    simp only [versionValue, hexValue]
    generalize ch.toNat = n at n1 n2
    split_ifs <;> first | rfl | (split <;> first | rfl | (rename_i h; simp at h; try omega))
  rw [this]
  simpa using And.intro h1 h2

/-- A hex digit's value is below 16. -/
theorem hexValue_lt {ch : Byte} {n : Nat} (h : hexValue ch = some n) : n < 16 := by
  simp only [hexValue] at h
  split at h
  · cases h; omega
  · split at h
    · cases h; omega
    · split at h
      · cases h; omega
      · cases h

end Sys2Proof.Machine
end

