-- ==== Sys2Proof/Laws/Run.lean ====
section
/-! SUPPORT. Laws/Run.lean: runs taken apart step by step and part by part. -/

namespace Sys2Proof.Machine

theorem run_nil (s : State) : run [] s = some (s, []) := rfl

/-- A step that goes on, before a run. -/
theorem run_cons {i : Instr} {is : List Instr} {s t u : State} {os : List Outputs} (h : exec i s = .next t)
    (hr : run is t = some (u, os)) : run (i :: is) s = some (u, t.out :: os) := by
  simp [run, h, hr]

theorem run_single {i : Instr} {s t : State} (h : exec i s = .next t) : run [i] s = some (t, [t.out]) := run_cons h rfl

/-- A run is its first step, then a run. -/
theorem run_cons_inv {i : Instr} {is : List Instr} {s u : State} {os : List Outputs} (h : run (i :: is) s = some (u, os)) :
    ∃ t os', exec i s = .next t ∧ run is t = some (u, os') ∧ os = t.out :: os' := by
  unfold run at h
  split at h
  · rename_i t ht
    split at h
    · rename_i v os' hr
      cases h
      exact ⟨t, os', ht, hr, rfl⟩
    · cases h
  · cases h

/-- Two runs one after the other. -/
theorem run_append {is js : List Instr} {s t u : State} {os ps : List Outputs} (h : run is s = some (t, os))
    (hr : run js t = some (u, ps)) : run (is ++ js) s = some (u, os ++ ps) := by
  induction is generalizing s os with
  | nil => cases h; exact hr
  | cons i is ih =>
    obtain ⟨v, os', hv, hv', rfl⟩ := run_cons_inv h
    exact run_cons hv (ih hv')

/-- One relation between the state before a run, its outputs and the state after it, from the relation of one step (packaged induction). -/
theorem run_induct {P : State → List Outputs → State → Prop} (ok : Instr → Prop) (hnil : ∀ s, P s [] s)
    (hcons : ∀ i s t os u, ok i → exec i s = .next t → P t os u → P s (t.out :: os) u) {is : List Instr} {s u : State}
    {os : List Outputs} (hok : ∀ i ∈ is, ok i) (h : run is s = some (u, os)) : P s os u := by
  induction is generalizing s os with
  | nil => cases h; exact hnil _
  | cons i is ih =>
    obtain ⟨t, os', ht, hr, rfl⟩ := run_cons_inv h
    exact hcons i s t os' u (hok i (by simp)) ht (ih (fun j hj => hok j (by simp [hj])) hr)

/-! ### What a run's outputs add up to -/

@[simp] theorem pushes_nil : pushes [] = [] := rfl
@[simp] theorem pops_nil : pops [] = [] := rfl
@[simp] theorem drops_nil : drops [] = 0 := rfl
@[simp] theorem frameEnds_nil : frameEnds [] = 0 := rfl
@[simp] theorem yields_nil : yields [] = [] := rfl

theorem pushes_cons (o : Outputs) (os : List Outputs) : pushes (o :: os) = o.pushed.toList ++ pushes os := by
  cases h : o.pushed <;> simp [pushes, h]

theorem pops_cons (o : Outputs) (os : List Outputs) : pops (o :: os) = (poppedToken o).toList ++ pops os := by
  cases h : poppedToken o <;> simp [pops, h]

theorem yields_cons (o : Outputs) (os : List Outputs) : yields (o :: os) = (yieldedCommand o).toList ++ yields os := by
  cases h : yieldedCommand o <;> simp [yields, h]

theorem drops_cons (o : Outputs) (os : List Outputs) : drops (o :: os) = o.overflow.isSome.toNat + drops os := by
  cases h : o.overflow <;> simp [drops, h, Nat.add_comm]

theorem frameEnds_cons (o : Outputs) (os : List Outputs) : frameEnds (o :: os) = o.frameEnd.toNat + frameEnds os := by
  cases h : o.frameEnd <;> simp [frameEnds, h, Nat.add_comm]

theorem pushes_append (os ps : List Outputs) : pushes (os ++ ps) = pushes os ++ pushes ps := by simp [pushes]
theorem pops_append (os ps : List Outputs) : pops (os ++ ps) = pops os ++ pops ps := by simp [pops]
theorem yields_append (os ps : List Outputs) : yields (os ++ ps) = yields os ++ yields ps := by simp [yields]
theorem drops_append (os ps : List Outputs) : drops (os ++ ps) = drops os + drops ps := by simp [drops]
theorem frameEnds_append (os ps : List Outputs) : frameEnds (os ++ ps) = frameEnds os + frameEnds ps := by simp [frameEnds]

end Sys2Proof.Machine
end

