-- ==== Sys2Proof/Laws/Frames.lean ====
section
/-! SUPPORT. Laws/Frames.lean: what the pulses of one symbol do to the receiver, from which runs of symbols are put together. -/

namespace Sys2Proof.Machine

theorem classify_hi (p : Nat) : classify (segPulse (hi p)) = signedCategory .high (magnitude p) := classify_ofNat p

theorem classify_lo (p : Nat) : classify (segPulse (lo p)) = signedCategory .low (magnitude p) := classify_neg p

/-- A `PULSE` on a listed pair that emits nothing. -/
theorem exec_pulse_go {s : State} {d : Int} {n : RxState} {p : Pending} (hl : listedPair s.rxState (classify d) s.pending = true)
    (h : rxNext s.rxState (classify d) s.pending = .go n p) : exec (.pulse d) s = .next (moved s n p) :=
  congrArg Host.Outcome.next (rxStep_go _ hl h)

/-- A `PULSE` that emits a token, with room. -/
theorem exec_pulse_emit {s : State} {d : Int} {n : RxState} {t : Token} (room : s.fifo.length < s.params.tokenCap)
    (h : rxNext s.rxState (classify d) s.pending = .emit n t) :
    exec (.pulse d) s =
      .next { s with rxState := n, pending := none, fifo := s.fifo ++ [t], out := { pushed := some t } } := by
  refine congrArg Host.Outcome.next ?_
  rw [rxStep_emit _ h]
  simp [emitted, room]

/-- A run that pushes exactly `ts`, with no `frame_end` and no drop, and leaves `rx_state` and `pending` as given. -/
structure Pushes (is : List Instr) (s : State) (ts : List Token) (next : RxState) (pend : Pending) (t : State)
    (os : List Outputs) : Prop where
  runs : run is s = some (t, os)
  pushed : pushes os = ts
  ends : frameEnds os = 0
  dropped : drops os = 0
  fifo : t.fifo = s.fifo ++ ts
  params : t.params = s.params
  rxState : t.rxState = next
  pending : t.pending = pend
  parser : t.parser = s.parser

theorem Pushes.nil (s : State) : Pushes [] s [] s.rxState s.pending s [] :=
  ⟨rfl, rfl, rfl, rfl, by simp, rfl, rfl, rfl, rfl⟩

theorem Pushes.append {is js : List Instr} {s t u : State} {xs ys : List Token} {n m : RxState} {p q : Pending}
    {os ps : List Outputs} (h : Pushes is s xs n p t os) (g : Pushes js t ys m q u ps) :
    Pushes (is ++ js) s (xs ++ ys) m q u (os ++ ps) :=
  ⟨run_append h.runs g.runs, by rw [pushes_append, h.pushed, g.pushed], by rw [frameEnds_append, h.ends, g.ends],
    by rw [drops_append, h.dropped, g.dropped], by rw [g.fifo, h.fifo, List.append_assoc], by rw [g.params, h.params], g.rxState,
    g.pending, by rw [g.parser, h.parser]⟩

/-- Four pulses of which the fourth emits. -/
theorem pushes_four {s : State} {a b c d : Int} {n₁ n₂ n₃ n₄ : RxState} {p₁ p₂ p₃ : Pending} {t : Token}
    (room : s.fifo.length < s.params.tokenCap)
    (h₁ : listedPair s.rxState (classify a) s.pending = true ∧ rxNext s.rxState (classify a) s.pending = .go n₁ p₁)
    (h₂ : listedPair n₁ (classify b) p₁ = true ∧ rxNext n₁ (classify b) p₁ = .go n₂ p₂)
    (h₃ : listedPair n₂ (classify c) p₂ = true ∧ rxNext n₂ (classify c) p₂ = .go n₃ p₃)
    (h₄ : rxNext n₃ (classify d) p₃ = .emit n₄ t) :
    ∃ u os, Pushes [.pulse a, .pulse b, .pulse c, .pulse d] s [t] n₄ none u os :=
  ⟨_, _, run_cons (exec_pulse_go h₁.1 h₁.2)
      (run_cons (exec_pulse_go (s := moved s n₁ p₁) h₂.1 h₂.2)
        (run_cons (exec_pulse_go (s := moved (moved s n₁ p₁) n₂ p₂) h₃.1 h₃.2)
          (run_single (exec_pulse_emit (s := moved (moved (moved s n₁ p₁) n₂ p₂) n₃ p₃) room h₄)))),
    rfl, rfl, rfl, rfl, rfl, rfl, rfl, rfl⟩

/-- The bit symbols of both formats from the state after a sync or a bit (R96 to R107). -/
theorem pushes_bit (v : Version) (b : Bool) {s : State} (hs : s.rxState = afterFrame v)
    (room : s.fifo.length < s.params.tokenCap) :
    ∃ u os, Pushes (pulsesOf (bitSymbol v b)) s [.bit b] (afterFrame v) none u os := by
  cases v <;> cases b
  · exact pushes_four room (n₁ := .bitB1) (p₁ := none) (by rw [hs]; exact ⟨rfl, rfl⟩) (n₂ := .bitB2) (p₂ := none) ⟨rfl, rfl⟩
      (n₃ := .bitB3) (p₃ := some false) ⟨rfl, rfl⟩ rfl
  · exact pushes_four room (n₁ := .bitB1) (p₁ := none) (by rw [hs]; exact ⟨rfl, rfl⟩) (n₂ := .bitB2) (p₂ := none) ⟨rfl, rfl⟩
      (n₃ := .bitB3) (p₃ := some true) ⟨rfl, rfl⟩ rfl
  · exact pushes_four room (n₁ := .bitA1) (p₁ := some false) (by rw [hs]; exact ⟨rfl, rfl⟩) (n₂ := .bitA2) (p₂ := some false)
      ⟨rfl, rfl⟩ (n₃ := .bitA3) (p₃ := some false) ⟨rfl, rfl⟩ rfl
  · exact pushes_four room (n₁ := .bitA1) (p₁ := some true) (by rw [hs]; exact ⟨rfl, rfl⟩) (n₂ := .bitA2) (p₂ := some true)
      ⟨rfl, rfl⟩ (n₃ := .bitA3) (p₃ := some true) ⟨rfl, rfl⟩ rfl

end Sys2Proof.Machine
end

