-- ==== Sys2Proof/Laws/PerInstr.lean ====
section
/-! SUPPORT. Laws/PerInstr.lean: statements made of every instruction as syntax, one lemma per constructor. -/

namespace Sys2Proof.Laws.CallFits

/-- Family `CallFits`: the call that carries a well-formed instruction fits the ports (R10, R11), so that its decoding is never a
rejection for width. -/
def Statement (i : Instr) : Prop := ∀ p : Params, WellFormed p i = true → (encode p i).fits p = true

theorem magZero : Statement .magZero := fun _ _ => rfl

theorem magM1 (level : Level) (low : BitVec 9) : Statement (.magM1 level low) := fun _ _ => rfl

theorem magM2Low (level : Level) (low : BitVec 9) : Statement (.magM2Low level low) := fun _ _ => rfl

theorem magM2High (level : Level) (low : BitVec 10) : Statement (.magM2High level low) := fun _ _ => rfl

theorem magM3 (level : Level) (low : BitVec 11) : Statement (.magM3 level low) := fun _ _ => rfl

theorem magM4 (level : Level) (low : BitVec 12) : Statement (.magM4 level low) := fun _ _ => rfl

theorem magM5 (level : Level) (low : BitVec 13) : Statement (.magM5 level low) := fun _ _ => rfl

theorem magInvLong (level : Level) (p : Nat) : Statement (.magInvLong level p) := fun _ _ => rfl

theorem unknownL5 (pend : Pending) : Statement (.unknownL5 pend) := fun _ _ => rfl

theorem synca1H1 (pend : Pending) : Statement (.synca1H1 pend) := fun _ _ => rfl

theorem synca2L3 (pend : Pending) : Statement (.synca2L3 pend) := fun _ _ => rfl

theorem synca2L2 (pend : Pending) : Statement (.synca2L2 pend) := fun _ _ => rfl

theorem synca3H1 (pend : Pending) : Statement (.synca3H1 pend) := fun _ _ => rfl

theorem bita0L2 (pend : Pending) : Statement (.bita0L2 pend) := fun _ _ => rfl

theorem bita0L1 (pend : Pending) : Statement (.bita0L1 pend) := fun _ _ => rfl

theorem bita1H1 (pend : Pending) : Statement (.bita1H1 pend) := fun _ _ => rfl

theorem bita2L1P1 : Statement .bita2L1P1 := fun _ _ => rfl

theorem bita2L2P0 : Statement .bita2L2P0 := fun _ _ => rfl

theorem bita3H1 (b : Bool) : Statement (.bita3H1 b) := fun _ _ => rfl

theorem bitb0H1 (pend : Pending) : Statement (.bitb0H1 pend) := fun _ _ => rfl

theorem bitb1L2 (pend : Pending) : Statement (.bitb1L2 pend) := fun _ _ => rfl

theorem bitb2H2 (pend : Pending) : Statement (.bitb2H2 pend) := fun _ _ => rfl

theorem bitb2H1 (pend : Pending) : Statement (.bitb2H1 pend) := fun _ _ => rfl

theorem bitb3L1P1 : Statement .bitb3L1P1 := fun _ _ => rfl

theorem bitb3L2P0 : Statement .bitb3L2P0 := fun _ _ => rfl

theorem unknownOther (c : Category) (pend : Pending) : Statement (.unknownOther c pend) := fun _ _ => rfl

theorem dflt (st : RxState) (c : Category) (pend : Pending) : Statement (.dflt st c pend) := fun _ _ => rfl

theorem pulse (d : Int) : Statement (.pulse d) := fun _ _ => decide_eq_true (BitVec.isLt _)

theorem pulsePushOrDrop (e : Emission) : Statement (.pulsePushOrDrop e) := fun _ _ => rfl

theorem tokenSynca : Statement .tokenSynca := fun _ _ => rfl

theorem tokenSyncb : Statement .tokenSyncb := fun _ _ => rfl

theorem tokenBit0 : Statement .tokenBit0 := fun _ _ => rfl

theorem tokenBit1 : Statement .tokenBit1 := fun _ _ => rfl

theorem pop : Statement .pop := fun _ _ => rfl

theorem len : Statement .len := fun _ _ => rfl

theorem readOvf : Statement .readOvf := fun _ _ => rfl

theorem transmitLegacy12 (f : CmdFields) (repeats : Nat) : Statement (.transmitLegacy12 f repeats) := fun _ h => h

theorem transmitModern32 (f : CmdFields) (repeats : Nat) : Statement (.transmitModern32 f repeats) := fun _ h => h

theorem transmitBadversion (v : BitVec 4) (f : CmdFields) (repeats : Nat) : Statement (.transmitBadversion v f repeats) := fun _ h => (Bool.and_eq_true_iff.mp h).2

theorem transmitBusy (v : BitVec 4) (f : CmdFields) (repeats : Nat) : Statement (.transmitBusy v f repeats) := fun _ h => h

theorem frame12 (device : BitVec 8) (state : Bool) : Statement (.frame12 device state) := fun _ _ => rfl

theorem frame32 (f : CmdFields) : Statement (.frame32 f) := fun _ _ => rfl

theorem txSync12 : Statement .txSync12 := fun _ _ => rfl

theorem txBit12One : Statement .txBit12One := fun _ _ => rfl

theorem txBit12Zero : Statement .txBit12Zero := fun _ _ => rfl

theorem txSync32 : Statement .txSync32 := fun _ _ => rfl

theorem txBit32One : Statement .txBit32One := fun _ _ => rfl

theorem txBit32Zero : Statement .txBit32Zero := fun _ _ => rfl

theorem txTerm12 : Statement .txTerm12 := fun _ _ => rfl

theorem txTerm32 : Statement .txTerm32 := fun _ _ => rfl

theorem txstep : Statement .txstep := fun _ _ => rfl

theorem txstepFinal : Statement .txstepFinal := fun _ _ => rfl

theorem reset : Statement .reset := fun _ _ => rfl

theorem parseToken (t : Token) : Statement (.parseToken t) := fun _ _ => rfl

theorem line (op : LineOp) : Statement (.line op) := by
  cases op <;> exact fun _ _ => rfl

end Sys2Proof.Laws.CallFits
end

