-- ==== Sys2Proof/Laws/Transmit.lean ====
section
/-! SUPPORT. Laws/Transmit.lean: the laws of waveforms and everything `TRANSMIT` and `TXSTEP` can do. -/

namespace Sys2Proof.Machine

/-! ### Waveforms -/

/-- Every segment of the eight symbols lasts (R63). -/
theorem bitSymbol_positive (v : Version) (b : Bool) : ∀ g ∈ bitSymbol v b, 0 < g.duration := by
  cases v <;> cases b <;> decide

theorem syncSymbol_positive (v : Version) : ∀ g ∈ syncSymbol v, 0 < g.duration := by cases v <;> decide

theorem termSymbol_positive (v : Version) : ∀ g ∈ termSymbol v, 0 < g.duration := by cases v <;> decide

/-- Every segment of a waveform lasts (R63). -/
theorem waveform_positive (c : Command) (n : Nat) : ∀ g ∈ waveform c n, 0 < g.duration := by
  intro g hg
  simp only [waveform, rep, List.mem_append, List.mem_flatten, List.mem_replicate] at hg
  obtain ⟨l, ⟨-, rfl⟩, hg⟩ | hg := hg
  · rcases List.mem_append.mp hg with h | h
    · exact syncSymbol_positive _ g h
    · obtain ⟨b, -, h⟩ := List.mem_flatMap.mp h
      exact bitSymbol_positive _ b g h
  · exact termSymbol_positive _ g hg

/-- Segments that last, then the final-level marker `LOW`, are a well-formed queue. -/
theorem txQueueWf_of_positive {segs : List Segment} (h : ∀ g ∈ segs, 0 < g.duration) :
    txQueueWf (segs.map .seg ++ [.final finalLevel]) = true := by
  induction segs with
  | nil => rfl
  | cons g segs ih =>
    have := h g (by simp)
    simp only [List.map_cons, List.cons_append, txQueueWf, this, decide_true, Bool.true_and]
    exact ih fun g hg => h g (by simp [hg])

/-- What an accepted `TRANSMIT` loads is a well-formed queue (R28, R160). -/
theorem txLoad_wf (c : Command) (n : Nat) : txQueueWf (txLoad c n) = true := txQueueWf_of_positive (waveform_positive c n)

theorem frameBits_length (c : Command) : (frameBits c).length = match c.version with | .legacy12 => 12 | .modern32 => 32 := by
  rcases c with ⟨_ | _, f⟩ <;> simp [frameBits, frame12Bits, frame32Bits, msbFirst]

/-! ### TRANSMIT -/

/-- `TRANSMIT` by its version code leads to a refusal or, idle and with a version's code, to the load of that command (R160, R161, R168). -/
theorem txTransmit_cases (v : BitVec 4) (f : CmdFields) (n : Nat) (s : State) :
    txTransmit v f n s = { s with out := {} } ∨
      ∃ c : Command, s.txBusy = false ∧ txTransmit v f n s = { s with txQueue := txLoad c n, txBusy := true, out := {} } := by
  unfold txTransmit
  split
  · exact .inl rfl
  · rename_i hb
    split
    · exact .inr ⟨_, by simpa using hb, rfl⟩
    · exact .inl rfl

/-! ### TXSTEP -/

/-- Everything `TXSTEP` can do: put out the next segment, end the waveform, or stop. -/
theorem txAdvance_cases (s : State) :
    (∃ g rest, s.txBusy = true ∧ s.txQueue = .seg g :: rest ∧
      txAdvance s = .next { s with pin := g.level, trace := s.trace ++ [g], txQueue := rest, out := {} }) ∨
    (∃ level, s.txBusy = true ∧ s.txQueue = [.final level] ∧
      txAdvance s = .next { s with pin := level, txQueue := [], txBusy := false, out := {} }) ∨
    (s.txBusy = false ∧ txAdvance s = .fault .txIdle) ∨
    (s.txBusy = true ∧ txQueueWf s.txQueue = false ∧ txAdvance s = .fault .txQueueMalformed) := by
  unfold txAdvance
  cases hb : s.txBusy with
  | false => exact .inr (.inr (.inl ⟨rfl, rfl⟩))
  | true =>
    rcases hq : s.txQueue with _ | ⟨(g | level), rest⟩
    · exact .inr (.inr (.inr ⟨rfl, rfl, rfl⟩))
    · exact .inl ⟨g, rest, rfl, rfl, by simp [txPutSegment, setOut, setTx, putOut, hb]⟩
    · cases rest with
      | nil => exact .inr (.inl ⟨level, rfl, rfl, rfl⟩)
      | cons e rest => exact .inr (.inr (.inr ⟨rfl, rfl, rfl⟩))

end Sys2Proof.Machine
end

