-- ==== Sys2Proof/Laws/Step.lean ====
section
/-! SUPPORT. Laws/Step.lean: once, everything an instruction can do; statements over all instructions go through it. -/

namespace Sys2Proof.Machine

/-- Outputs of a step that moves no token and leaves no frame. -/
def Outputs.quiet (o : Outputs) : Bool := o.pushed.isNone && o.overflow.isNone && (poppedToken o).isNone && !o.frameEnd

/-- The parser's step on a bit: only its own variables and the outputs change, and it then holds less than a frame. -/
theorem parseBit_cases (b : Bool) (s : State) :
    ∃ p o, parseBit b s = { s with parser := p, out := o } ∧ o.quiet = true ∧
      (parserWf s.parser = true → parserWf p = true) := by
  unfold parseBit
  split
  · exact ⟨s.parser, _, rfl, rfl, id⟩
  · rename_i mode hmode
    dsimp only
    split
    · exact ⟨{}, _, rfl, rfl, fun _ => rfl⟩
    · rename_i hlen
      refine ⟨{ mode := s.parser.mode, bits := s.parser.bits ++ [b] }, _, rfl, rfl, fun h => ?_⟩
      unfold parserWf at h ⊢
      cases hm : s.parser.mode with
      | none => exact absurd hm hmode
      | a =>
        rw [hm] at h hlen
        have h : s.parser.bits.length < 32 := of_decide_eq_true h
        have hlen : ¬(s.parser.bits ++ [b]).length = 32 := hlen
        rw [List.length_append, List.length_singleton] at hlen
        exact decide_eq_true (show (s.parser.bits ++ [b]).length < 32 by rw [List.length_append, List.length_singleton]; omega)
      | b =>
        rw [hm] at h hlen
        have h : s.parser.bits.length < 12 := of_decide_eq_true h
        have hlen : ¬(s.parser.bits ++ [b]).length = 12 := hlen
        rw [List.length_append, List.length_singleton] at hlen
        exact decide_eq_true (show (s.parser.bits ++ [b]).length < 12 by rw [List.length_append, List.length_singleton]; omega)

/-- The parser's step. -/
theorem execParseToken_cases (t : Token) (s : State) :
    ∃ p o, execParseToken t s = .next { s with parser := p, out := o } ∧ o.quiet = true ∧
      (parserWf s.parser = true → parserWf p = true) := by
  rcases t with _ | _ | b
  · exact ⟨parserStart .a, _, rfl, rfl, fun _ => rfl⟩
  · exact ⟨parserStart .b, _, rfl, rfl, fun _ => rfl⟩
  · obtain ⟨p, o, h, ho, hp⟩ := parseBit_cases b s
    exact ⟨p, o, congrArg _ h, ho, hp⟩

/-- Everything an instruction can do: nothing but an output, a receive step, the end of an emitting step, a pop, a `TRANSMIT` refused or
accepted, a `TXSTEP`, a `RESET`, a step of the parser. -/
theorem exec_cases (i : Instr) (s : State) :
    (agentOf i ≠ some .rxp ∧ agentOf i ≠ some .txa ∧ agentOf i ≠ some .host ∧ i ≠ .pop ∧
      ∃ o, exec i s = .next { s with out := o } ∧ o.quiet = true) ∨
    (agentOf i = some .rxp ∧ ∃ c info, exec i s = .next (rxStep c info s)) ∨
    (agentOf i = some .rxp ∧ ∃ e, exec i s = .next (emitted s (emissionResult e).1 (emissionResult e).2)) ∨
    (i = .pop ∧ exec i s = .next { s with fifo := s.fifo.tail, out := { ret := .popped s.fifo.head? } }) ∨
    (agentOf i = some .host ∧ i ≠ .reset ∧
      (exec i s = .next { s with out := {} } ∨
        ∃ c n, s.txBusy = false ∧ exec i s = .next { s with txQueue := txLoad c n, txBusy := true, out := {} })) ∨
    (agentOf i = some .txa ∧ exec i s = txAdvance s) ∨
    (i = .reset ∧ exec i s = execReset s) ∨
    (agentOf i = some .software ∧
      ∃ p o, exec i s = .next { s with parser := p, out := o } ∧ o.quiet = true ∧
        (parserWf s.parser = true → parserWf p = true)) := by
  cases i with
  | magZero | magM1 _ _ | magM2Low _ _ | magM2High _ _ | magM3 _ _ | magM4 _ _ | magM5 _ _ | magInvLong _ _ | tokenSynca
  | tokenSyncb | tokenBit0 | tokenBit1 | len | readOvf | frame12 _ _ | frame32 _ | txSync12 | txBit12One | txBit12Zero | txSync32
  | txBit32One | txBit32Zero | txTerm12 | txTerm32 =>
    exact .inl ⟨by simp [agentOf], by simp [agentOf], by simp [agentOf], by simp, _, rfl, rfl⟩
  | line op =>
    cases op <;> exact .inl ⟨by simp [agentOf], by simp [agentOf], by simp [agentOf], by simp, _, rfl, rfl⟩
  | pulse d => exact .inr (.inl ⟨rfl, _, _, rfl⟩)
  | unknownL5 _ | synca1H1 _ | synca2L3 _ | synca2L2 _ | synca3H1 _ | bita0L2 _ | bita0L1 _ | bita1H1 _ | bita2L1P1 | bita2L2P0
  | bita3H1 _ | bitb0H1 _ | bitb1L2 _ | bitb2H2 _ | bitb2H1 _ | bitb3L1P1 | bitb3L2P0 | unknownOther _ _ | dflt _ _ _ =>
    exact .inr (.inl ⟨rfl, _, _, exec_receiveRow rfl s⟩)
  | pulsePushOrDrop e => exact .inr (.inr (.inl ⟨rfl, e, execPulsePushOrDrop_eq e s⟩))
  | pop => exact .inr (.inr (.inr (.inl ⟨rfl, rfl⟩)))
  | transmitLegacy12 f n =>
    refine .inr (.inr (.inr (.inr (.inl ⟨rfl, by simp, ?_⟩))))
    by_cases hb : s.txBusy = true
    · exact .inl (congrArg _ (if_pos hb))
    · exact .inr ⟨_, n, by simpa using hb, congrArg _ (if_neg hb)⟩
  | transmitModern32 f n =>
    refine .inr (.inr (.inr (.inr (.inl ⟨rfl, by simp, ?_⟩))))
    by_cases hb : s.txBusy = true
    · exact .inl (congrArg _ (if_pos hb))
    · exact .inr ⟨_, n, by simpa using hb, congrArg _ (if_neg hb)⟩
  | transmitBadversion v f n =>
    refine .inr (.inr (.inr (.inr (.inl ⟨rfl, by simp, ?_⟩))))
    rcases txTransmit_cases v f n s with h | ⟨c, hb, h⟩
    · exact .inl (congrArg _ h)
    · exact .inr ⟨c, n, hb, congrArg _ h⟩
  | transmitBusy v f n =>
    refine .inr (.inr (.inr (.inr (.inl ⟨rfl, by simp, ?_⟩))))
    by_cases hb : s.txBusy = true
    · exact .inl (congrArg _ (if_pos hb))
    · rcases txTransmit_cases v f n s with h | ⟨c, hc, h⟩
      · exact .inl (congrArg _ ((if_neg hb).trans h))
      · exact .inr ⟨c, n, hc, congrArg _ ((if_neg hb).trans h)⟩
  | txstep | txstepFinal => exact .inr (.inr (.inr (.inr (.inr (.inl ⟨rfl, rfl⟩)))))
  | reset => exact .inr (.inr (.inr (.inr (.inr (.inr (.inl ⟨rfl, rfl⟩))))))
  | parseToken t => exact .inr (.inr (.inr (.inr (.inr (.inr (.inr ⟨rfl, execParseToken_cases t s⟩))))))

end Sys2Proof.Machine
end

