-- ==== Sys2Proof/Tests/Slice0.lean ====
section
/-! SUPPORT. Tests/Slice0.lean: the model's own checks. Expected values come from the spec: the vectors of 95_test_vectors.md (cited as V2.1
and so on) and the rules named; words are written out from the encodings of R57, R59, R61, R62, R72. Last come the witnesses: for each
statement with hypotheses, states and operands that meet them, at the bounds of each clause. -/

namespace Sys2Proof.Machine.Tests

/-! ### Small states -/

/-- The reset state with another receiver state and pending register. -/
def rx (st : RxState) (p : Pending) : State := { State.reset with rxState := st, pending := p }

/-- The same, with a buffer of two cells that holds `A1` (V2.4). -/
def rxFull (st : RxState) (p : Pending) : State :=
  { rx st p with fifo := [.syncA, .bit true], params := { Params.suggested with tokenCap := 2 } }

/-- A transmitter in the middle of a waveform. -/
def busy : State := { State.reset with txBusy := true, txQueue := [.seg ⟨.high, 350⟩, .seg ⟨.low, 10850⟩, .final .low] }

/-- A transmitter with only the final-level marker left, its pin high. -/
def atEnd : State := { State.reset with txBusy := true, txQueue := [.final .low], pin := .high }

/-- A parser in the middle of a frame. -/
def parsing (mode : ParserMode) (bits : List Bool) : State := { State.reset with parser := { mode := mode, bits := bits } }

/-- The suggested port widths, the transmitter idle. -/
def ctx : DecodeCtx := { params := Params.suggested, txBusy := false, onlyFinal := false }

/-- `{Legacy12, device 0x2F, state 0}`, the command of V2.6. -/
def legacy : Command := ⟨.legacy12, ⟨0x2F, false, 0, false⟩⟩

/-- `{Modern32, device 0xABCDEF, group 1, channel 0xA, state 1}`, the command of V2.6. -/
def modern : Command := ⟨.modern32, ⟨0xABCDEF, true, 0xA, true⟩⟩

/-- A string of `0` and `1` as bits. -/
def bits (s : String) : List Bool := s.toList.map (· == '1')

/-- A string as bytes of its ASCII codes. -/
def ascii (s : String) : List Byte := s.toList.map fun c => BitVec.ofNat 8 c.toNat

/-! ### WellFormed: an ill-formed term for each check -/

theorem test_wf_mag_m1 : WellFormed Params.suggested (.magM1 .high 0) = false := by decide
theorem test_wf_mag_inv_long : WellFormed Params.suggested (.magInvLong .low 16383) = false := by decide
theorem test_wf_unknown_other : WellFormed Params.suggested (.unknownOther .l5 none) = false := by decide
theorem test_wf_default_unknown : WellFormed Params.suggested (.dflt .unknown .h1 none) = false := by decide
theorem test_wf_default_listed : WellFormed Params.suggested (.dflt .bitA2 .l1 (some true)) = false := by decide
theorem test_wf_pulse_high : WellFormed Params.suggested (.pulse 32768) = false := by decide
theorem test_wf_pulse_low : WellFormed Params.suggested (.pulse (-32769)) = false := by decide
theorem test_wf_transmit_legacy : WellFormed Params.suggested (.transmitLegacy12 legacy.fields 256) = false := by decide
theorem test_wf_transmit_modern : WellFormed Params.suggested (.transmitModern32 modern.fields 256) = false := by decide
theorem test_wf_transmit_busy : WellFormed Params.suggested (.transmitBusy 1 legacy.fields 256) = false := by decide
theorem test_wf_badversion_one : WellFormed Params.suggested (.transmitBadversion 1 legacy.fields 1) = false := by decide
theorem test_wf_badversion_two : WellFormed Params.suggested (.transmitBadversion 2 legacy.fields 1) = false := by decide
theorem test_wf_badversion_repeats : WellFormed Params.suggested (.transmitBadversion 3 legacy.fields 256) = false := by decide
theorem test_wf_bounds :
    WellFormed Params.suggested (.pulse 32767) = true ∧ WellFormed Params.suggested (.pulse (-32768)) = true ∧
      WellFormed Params.suggested (.transmitBusy 15 legacy.fields 255) = true ∧
      WellFormed Params.suggested (.magInvLong .low 16384) = true := by decide

/-! ### Decoding: every constructor's word, bit by bit -/

/-- V2.10 and the patterns of format `PULSE.MAG`: 15 bits of `abs(d)`. -/
theorem test_decode_magnitudes :
    decode ctx (.mag .low 0b000000000000000) = .ok .magZero ∧
      decode ctx (.mag .low 0b000000111111111) = .ok (.magM1 .low 0b111111111) ∧
      decode ctx (.mag .low 0b000001000000000) = .ok (.magM2Low .low 0) ∧
      decode ctx (.mag .high 0b000010000000000) = .ok (.magM2High .high 0) ∧
      decode ctx (.mag .high 0b000011111111111) = .ok (.magM2High .high 0b1111111111) ∧
      decode ctx (.mag .low 0b000100000000000) = .ok (.magM3 .low 0) ∧
      decode ctx (.mag .low 0b001111111111111) = .ok (.magM4 .low 0b111111111111) ∧
      decode ctx (.mag .low 0b011111111111111) = .ok (.magM5 .low 0b1111111111111) ∧
      decode ctx (.mag .low 0b100000000000000) = .ok (.magInvLong .low 16384) ∧
      decode ctx (.mag .high 40000) = .ok (.magInvLong .high 40000) :=
  ⟨rfl, rfl, rfl, rfl, rfl, rfl, rfl, rfl, rfl, rfl⟩

/-- V2.10 and R72(b): state (4 bits), category plus 5 (4 bits), pending (set bit, value bit). -/
theorem test_decode_sync_keys :
    decode ctx (.rxstep 0b0000000000) = .ok (.unknownL5 none) ∧
      decode ctx (.rxstep 0b0000000011) = .ok (.unknownL5 (some true)) ∧
      decode ctx (.rxstep 0b0001011000) = .ok (.synca1H1 none) ∧
      decode ctx (.rxstep 0b0010001000) = .ok (.synca2L3 none) ∧
      decode ctx (.rxstep 0b0010001100) = .ok (.synca2L2 none) ∧
      decode ctx (.rxstep 0b0011011000) = .ok (.synca3H1 none) ∧
      decode ctx (.rxstep 0b0000011000) = .ok (.unknownOther .h1 none) ∧
      decode ctx (.rxstep 0b0100000000) = .ok (.dflt .bitA0 .l5 none) :=
  ⟨rfl, rfl, rfl, rfl, rfl, rfl, rfl, rfl⟩

theorem test_decode_format_a_keys :
    decode ctx (.rxstep 0b0100001100) = .ok (.bita0L2 none) ∧
      decode ctx (.rxstep 0b0100010000) = .ok (.bita0L1 none) ∧
      decode ctx (.rxstep 0b0101011011) = .ok (.bita1H1 (some true)) ∧
      decode ctx (.rxstep 0b0110010011) = .ok .bita2L1P1 ∧
      decode ctx (.rxstep 0b0110010010) = .ok (.dflt .bitA2 .l1 (some false)) ∧
      decode ctx (.rxstep 0b0110001110) = .ok .bita2L2P0 ∧
      decode ctx (.rxstep 0b0111011010) = .ok (.bita3H1 false) ∧
      decode ctx (.rxstep 0b0111011011) = .ok (.bita3H1 true) ∧
      decode ctx (.rxstep 0b0111011000) = .ok (.dflt .bitA3 .h1 none) :=
  ⟨rfl, rfl, rfl, rfl, rfl, rfl, rfl, rfl, rfl⟩

theorem test_decode_format_b_keys :
    decode ctx (.rxstep 0b1000011000) = .ok (.bitb0H1 none) ∧
      decode ctx (.rxstep 0b1001001100) = .ok (.bitb1L2 none) ∧
      decode ctx (.rxstep 0b1010011100) = .ok (.bitb2H2 none) ∧
      decode ctx (.rxstep 0b1010011000) = .ok (.bitb2H1 none) ∧
      decode ctx (.rxstep 0b1011010011) = .ok .bitb3L1P1 ∧
      decode ctx (.rxstep 0b1011001110) = .ok .bitb3L2P0 ∧
      decode ctx (.rxstep 0b1011001111) = .ok (.dflt .bitB3 .l2 (some true)) ∧
      decode ctx (.rxstep 0b1000010100) = .ok (.dflt .bitB0 .inv none) :=
  ⟨rfl, rfl, rfl, rfl, rfl, rfl, rfl, rfl⟩

/-- Keys with a field that holds no code (R20, R72(b)). -/
theorem test_decode_reserved_keys :
    decode ctx (.rxstep 0b1100000000) = .error .stateCode ∧ decode ctx (.rxstep 0b1111011000) = .error .stateCode ∧
      decode ctx (.rxstep 0b0000101100) = .error .categoryCode ∧ decode ctx (.rxstep 0b0110111111) = .error .categoryCode ∧
      decode ctx (.rxstep 0b0110010001) = .error .pendingCode :=
  ⟨rfl, rfl, rfl, rfl, rfl⟩

/-- R56: two's complement on a 16-bit port. -/
theorem test_decode_pulse :
    decode ctx (.pulse 0b0000000101011110) = .ok (.pulse 350) ∧
      decode ctx (.pulse 0b1111111010100010) = .ok (.pulse (-350)) ∧
      decode ctx (.pulse 0b1000000000000000) = .ok (.pulse (-32768)) ∧
      decode ctx (.pulse 65536) = .error .durationWidth := by decide

/-- The model's codes of the operand of `PULSE.PUSH_OR_DROP` (log 2). -/
theorem test_decode_push_or_drop :
    decode ctx (.pushOrDrop 0b000) = .ok (.pulsePushOrDrop .syncB) ∧
      decode ctx (.pushOrDrop 0b001) = .ok (.pulsePushOrDrop .syncA) ∧
      decode ctx (.pushOrDrop 0b011) = .ok (.pulsePushOrDrop (.bitA true)) ∧
      decode ctx (.pushOrDrop 0b100) = .ok (.pulsePushOrDrop (.bitB false)) ∧
      decode ctx (.pushOrDrop 0b110) = .error .emissionCode :=
  ⟨rfl, rfl, rfl, rfl, rfl⟩

/-- R57: `'A'`, `'B'`, `'0'`, `'1'`; no other cell value. -/
theorem test_decode_tokens :
    decode ctx (.token 0b01000001) = .ok .tokenSynca ∧ decode ctx (.token 0b01000010) = .ok .tokenSyncb ∧
      decode ctx (.token 0b00110000) = .ok .tokenBit0 ∧ decode ctx (.token 0b00110001) = .ok .tokenBit1 ∧
      decode ctx (.token 0b00110010) = .error .tokenByte ∧ decode ctx (.parseToken 0b01000010) = .ok (.parseToken .syncB) ∧
      decode ctx (.parseToken 0b11000010) = .error .tokenByte :=
  ⟨rfl, rfl, rfl, rfl, rfl, rfl, rfl⟩

/-- R2, R72(g): the operations without an operand word, and the two rows of `TXSTEP`. -/
theorem test_decode_operations :
    decode ctx .pop = .ok .pop ∧ decode ctx .len = .ok .len ∧ decode ctx .readOvf = .ok .readOvf ∧
      decode ctx .txstep = .ok .txstep ∧ decode { ctx with txBusy := true, onlyFinal := true } .txstep = .ok .txstepFinal ∧
      decode ctx .reset = .ok .reset :=
  ⟨rfl, rfl, rfl, rfl, rfl, rfl⟩

/-- R59: version (4), device (24), group (1), channel (4), state (1). -/
theorem test_decode_transmit :
    decode ctx (.transmit 0b0001000000000000000000101111000000 5) = .ok (.transmitLegacy12 legacy.fields 5) ∧
      decode ctx (.transmit 0b0010101010111100110111101111110101 5) = .ok (.transmitModern32 modern.fields 5) ∧
      decode ctx (.transmit 0b0011000000000000000000101111000000 5) = .ok (.transmitBadversion 3 legacy.fields 5) ∧
      decode { ctx with txBusy := true } (.transmit 0b0011000000000000000000101111000000 5) =
        .ok (.transmitBusy 3 legacy.fields 5) ∧
      decode ctx (.transmit 0b0001000000000000000000101111000000 256) = .error .repeatWidth := by decide

/-- V2.6: the frames of `legacy` and `modern` in time order, and a wrong marker of each (R61, R62). -/
theorem test_decode_frames :
    decode ctx (.frame12 0b001011110110) = .ok (.frame12 0x2F false) ∧
      decode ctx (.frame12 0b001011111110) = .error .frame12Marker ∧
      decode ctx (.frame32 0b10101011110011011110111110111010) = .ok (.frame32 modern.fields) ∧
      decode ctx (.frame32 0b10101011110011011110111100111010) = .error .frame32Marker := by decide

/-- The symbol rows in the table's order (log 2). -/
theorem test_decode_symbols :
    decode ctx (.symbol 0) = .ok .txSync12 ∧ decode ctx (.symbol 1) = .ok .txBit12One ∧
      decode ctx (.symbol 2) = .ok .txBit12Zero ∧ decode ctx (.symbol 3) = .ok .txSync32 ∧
      decode ctx (.symbol 4) = .ok .txBit32One ∧ decode ctx (.symbol 5) = .ok .txBit32Zero ∧
      decode ctx (.symbol 6) = .ok .txTerm12 ∧ decode ctx (.symbol 7) = .ok .txTerm32 :=
  ⟨rfl, rfl, rfl, rfl, rfl, rfl, rfl, rfl⟩

theorem test_decode_lines :
    decode ctx (.line [0x32]) = .ok (.line (.parse [0x32])) ∧
      decode ctx (.printLine 0b0010101010111100110111101111110101) = .ok (.line (.print modern)) ∧
      decode ctx (.printLine 0b0000101010111100110111101111110101) = .error .printVersion := by decide

/-- Words numbered as the opcode table numbers them (log 21). -/
theorem test_decode_table_words :
    decodeTableWord 10 0x193 = some .bita2L1P1 ∧ decodeTableWord 16 0x193 = some .bita2L1P1 ∧
      decodeTableWord 8 0x42 = some .tokenSyncb ∧ decodeTableWord 15 512 = some (.magM2Low .high 0) ∧
      decodeTableWord 12 0b001011110110 = some (.frame12 0x2F false) ∧ decodeTableWord 8 0x43 = none := by decide

/-! ### The classifier (V2.1) -/

theorem test_classify_m1 :
    classify 1 = .h1 ∧ classify 511 = .h1 ∧ classify (-1) = .l1 ∧ classify (-511) = .l1 := by decide
theorem test_classify_m2_low :
    classify 512 = .h2 ∧ classify 1023 = .h2 ∧ classify (-512) = .l2 ∧ classify (-1023) = .l2 := by decide
theorem test_classify_m2_high :
    classify 1024 = .h2 ∧ classify 2047 = .h2 ∧ classify (-1024) = .l2 ∧ classify (-2047) = .l2 := by decide
theorem test_classify_m3 :
    classify 2048 = .h3 ∧ classify 4095 = .h3 ∧ classify (-2048) = .l3 ∧ classify (-4095) = .l3 := by decide
theorem test_classify_m4 :
    classify 4096 = .h4 ∧ classify 8191 = .h4 ∧ classify (-4096) = .l4 ∧ classify (-8191) = .l4 := by decide
theorem test_classify_m5 :
    classify 8192 = .h5 ∧ classify 16383 = .h5 ∧ classify (-8192) = .l5 ∧ classify (-16383) = .l5 := by decide
theorem test_classify_invalid :
    classify 0 = .inv ∧ classify 16384 = .inv ∧ classify (-16384) = .inv ∧ classify (-32768) = .inv ∧ classify 1000000 = .inv := by
  decide

theorem test_magnitude_rows :
    exec (.magM1 .low 1) State.reset = .next { State.reset with out := { ret := .category .l1 } } ∧
      exec (.magM2Low .low 0) State.reset = .next { State.reset with out := { ret := .category .l2 } } ∧
      exec (.magM2High .high 0) State.reset = .next { State.reset with out := { ret := .category .h2 } } ∧
      exec (.magM3 .low 5) State.reset = .next { State.reset with out := { ret := .category .l3 } } ∧
      exec (.magM4 .high 0) State.reset = .next { State.reset with out := { ret := .category .h4 } } ∧
      exec (.magM5 .low 0) State.reset = .next { State.reset with out := { ret := .category .l5 } } ∧
      exec (.magInvLong .low 16384) State.reset = .next { State.reset with out := { ret := .category .inv } } ∧
      exec .magZero State.reset = .next { State.reset with out := { ret := .category .inv } } :=
  ⟨rfl, rfl, rfl, rfl, rfl, rfl, rfl, rfl⟩

/-! ### The receive step (V2.2): the pulse and its row, one step each -/

theorem test_unknown_l5 :
    exec (.pulse (-10150)) (rx .unknown none) = .next { rx .syncA1 none with out := {} } ∧
      exec (.unknownL5 none) (rx .unknown none) = .next { rx .syncA1 none with out := {} } := ⟨rfl, rfl⟩

theorem test_synca1_h1 :
    exec (.pulse 310) (rx .syncA1 none) = .next { rx .syncA2 none with out := {} } ∧
      exec (.synca1H1 none) (rx .syncA1 none) = .next { rx .syncA2 none with out := {} } := ⟨rfl, rfl⟩

theorem test_synca2_l3 :
    exec (.pulse (-2643)) (rx .syncA2 none) = .next { rx .syncA3 none with out := {} } ∧
      exec (.synca2L3 none) (rx .syncA2 none) = .next { rx .syncA3 none with out := {} } := ⟨rfl, rfl⟩

theorem test_synca2_l2 :
    exec (.pulse (-1050)) (rx .syncA2 none) = .next { rx .bitB2 none with fifo := [.syncB], out := { pushed := some (.syncB) } } ∧
      exec (.synca2L2 none) (rx .syncA2 none) = .next { rx .bitB2 none with fifo := [.syncB], out := { pushed := some (.syncB) } } := ⟨rfl, rfl⟩

theorem test_synca3_h1 :
    exec (.pulse 310) (rx .syncA3 none) = .next { rx .bitA0 none with fifo := [.syncA], out := { pushed := some (.syncA) } } ∧
      exec (.synca3H1 none) (rx .syncA3 none) = .next { rx .bitA0 none with fifo := [.syncA], out := { pushed := some (.syncA) } } := ⟨rfl, rfl⟩

theorem test_bita0_l2 :
    exec (.pulse (-1236)) (rx .bitA0 none) = .next { rx .bitA1 (some true) with out := {} } ∧
      exec (.bita0L2 none) (rx .bitA0 none) = .next { rx .bitA1 (some true) with out := {} } := ⟨rfl, rfl⟩

theorem test_bita0_l1 :
    exec (.pulse (-215)) (rx .bitA0 none) = .next { rx .bitA1 (some false) with out := {} } ∧
      exec (.bita0L1 none) (rx .bitA0 none) = .next { rx .bitA1 (some false) with out := {} } := ⟨rfl, rfl⟩

theorem test_bita1_h1 :
    exec (.pulse 310) (rx .bitA1 (some true)) = .next { rx .bitA2 (some true) with out := {} } ∧
      exec (.bita1H1 (some true)) (rx .bitA1 (some true)) = .next { rx .bitA2 (some true) with out := {} } := ⟨rfl, rfl⟩

theorem test_bita2_l1_p1 :
    exec (.pulse (-215)) (rx .bitA2 (some true)) = .next { rx .bitA3 (some true) with out := {} } ∧
      exec .bita2L1P1 (rx .bitA2 (some true)) = .next { rx .bitA3 (some true) with out := {} } := ⟨rfl, rfl⟩

theorem test_bita2_l2_p0 :
    exec (.pulse (-1236)) (rx .bitA2 (some false)) = .next { rx .bitA3 (some false) with out := {} } ∧
      exec .bita2L2P0 (rx .bitA2 (some false)) = .next { rx .bitA3 (some false) with out := {} } := ⟨rfl, rfl⟩

theorem test_bita3_h1 :
    exec (.pulse 310) (rx .bitA3 (some false)) = .next { rx .bitA0 none with fifo := [.bit false], out := { pushed := some (.bit false) } } ∧
      exec (.bita3H1 false) (rx .bitA3 (some false)) = .next { rx .bitA0 none with fifo := [.bit false], out := { pushed := some (.bit false) } } := ⟨rfl, rfl⟩

theorem test_bitb0_h1 :
    exec (.pulse 350) (rx .bitB0 none) = .next { rx .bitB1 none with out := {} } ∧
      exec (.bitb0H1 none) (rx .bitB0 none) = .next { rx .bitB1 none with out := {} } := ⟨rfl, rfl⟩

theorem test_bitb1_l2 :
    exec (.pulse (-1050)) (rx .bitB1 none) = .next { rx .bitB2 none with out := {} } ∧
      exec (.bitb1L2 none) (rx .bitB1 none) = .next { rx .bitB2 none with out := {} } := ⟨rfl, rfl⟩

theorem test_bitb2_h2 :
    exec (.pulse 1050) (rx .bitB2 none) = .next { rx .bitB3 (some true) with out := {} } ∧
      exec (.bitb2H2 none) (rx .bitB2 none) = .next { rx .bitB3 (some true) with out := {} } := ⟨rfl, rfl⟩

theorem test_bitb2_h1 :
    exec (.pulse 350) (rx .bitB2 none) = .next { rx .bitB3 (some false) with out := {} } ∧
      exec (.bitb2H1 none) (rx .bitB2 none) = .next { rx .bitB3 (some false) with out := {} } := ⟨rfl, rfl⟩

theorem test_bitb3_l1_p1 :
    exec (.pulse (-350)) (rx .bitB3 (some true)) = .next { rx .bitB0 none with fifo := [.bit true], out := { pushed := some (.bit true) } } ∧
      exec .bitb3L1P1 (rx .bitB3 (some true)) = .next { rx .bitB0 none with fifo := [.bit true], out := { pushed := some (.bit true) } } := ⟨rfl, rfl⟩

theorem test_bitb3_l2_p0 :
    exec (.pulse (-1050)) (rx .bitB3 (some false)) = .next { rx .bitB0 none with fifo := [.bit false], out := { pushed := some (.bit false) } } ∧
      exec .bitb3L2P0 (rx .bitB3 (some false)) = .next { rx .bitB0 none with fifo := [.bit false], out := { pushed := some (.bit false) } } := ⟨rfl, rfl⟩

/-! ### The default (V2.3) -/

theorem test_default_unknown_ignores :
    exec (.pulse (-8191)) (rx .unknown none) = .next { rx .unknown none with out := {} } ∧
      exec (.unknownOther .l4 none) (rx .unknown none) = .next { rx .unknown none with out := {} } := ⟨rfl, rfl⟩

theorem test_default_unknown_invalid :
    exec (.pulse (-16384)) (rx .unknown none) = .next { rx .unknown none with out := { invalidPulse := some (.duration (-16384)) } } ∧
      exec (.unknownOther .inv none) (rx .unknown none) = .next { rx .unknown none with out := { invalidPulse := some .categoryOnly } } := ⟨rfl, rfl⟩

theorem test_default_l5_consumed :
    exec (.pulse (-10150)) (rx .bitA0 none) = .next { rx .unknown none with out := { frameEnd := true, desync := some (.bitA0, .l5) } } ∧
      exec (.dflt .bitA0 .l5 none) (rx .bitA0 none) = .next { rx .unknown none with out := { frameEnd := true, desync := some (.bitA0, .l5) } } := ⟨rfl, rfl⟩

theorem test_default_wrong_complement :
    exec (.pulse (-1050)) (rx .bitB3 (some true)) = .next { rx .unknown none with out := { frameEnd := true, desync := some (.bitB3, .l2) } } ∧
      exec (.dflt .bitB3 .l2 (some true)) (rx .bitB3 (some true)) = .next { rx .unknown none with out := { frameEnd := true, desync := some (.bitB3, .l2) } } := ⟨rfl, rfl⟩

theorem test_default_invalid_outside_unknown :
    exec (.pulse 20000) (rx .bitA2 (some true)) = .next { rx .unknown none with out := { frameEnd := true, desync := some (.bitA2, .inv), invalidPulse := some (.duration 20000) } } ∧
      exec (.dflt .bitA2 .inv (some true)) (rx .bitA2 (some true)) = .next { rx .unknown none with out := { frameEnd := true, desync := some (.bitA2, .inv), invalidPulse := some .categoryOnly } } := ⟨rfl, rfl⟩

theorem test_default_pending_unset :
    exec (.pulse 310) (rx .bitA3 none) = .next { rx .unknown none with out := { frameEnd := true, desync := some (.bitA3, .h1) } } ∧
      exec (.dflt .bitA3 .h1 none) (rx .bitA3 none) = .next { rx .unknown none with out := { frameEnd := true, desync := some (.bitA3, .h1) } } := ⟨rfl, rfl⟩

/-! ### Overflow (V2.4) -/

theorem test_overflow_synca2 :
    exec (.pulse (-1050)) (rxFull .syncA2 none) = .next { rxFull .unknown none with ovfCount := 1, out := { overflow := some (.syncB), frameEnd := true } } ∧
      exec (.pulsePushOrDrop .syncB) (rxFull .syncA2 none) = .next { rxFull .unknown none with ovfCount := 1, out := { overflow := some (.syncB), frameEnd := true } } := ⟨rfl, rfl⟩

theorem test_overflow_synca3 :
    exec (.pulse 310) (rxFull .syncA3 none) = .next { rxFull .unknown none with ovfCount := 1, out := { overflow := some (.syncA), frameEnd := true } } ∧
      exec (.pulsePushOrDrop .syncA) (rxFull .syncA3 none) = .next { rxFull .unknown none with ovfCount := 1, out := { overflow := some (.syncA), frameEnd := true } } := ⟨rfl, rfl⟩

theorem test_overflow_bita3 :
    exec (.pulse 310) (rxFull .bitA3 (some true)) = .next { rxFull .unknown none with ovfCount := 1, out := { overflow := some (.bit true), frameEnd := true } } ∧
      exec (.pulsePushOrDrop (.bitA true)) (rxFull .bitA3 (some true)) = .next { rxFull .unknown none with ovfCount := 1, out := { overflow := some (.bit true), frameEnd := true } } := ⟨rfl, rfl⟩

theorem test_overflow_bitb3 :
    exec (.pulse (-1050)) (rxFull .bitB3 (some false)) = .next { rxFull .unknown none with ovfCount := 1, out := { overflow := some (.bit false), frameEnd := true } } ∧
      exec (.pulsePushOrDrop (.bitB false)) (rxFull .bitB3 (some false)) = .next { rxFull .unknown none with ovfCount := 1, out := { overflow := some (.bit false), frameEnd := true } } := ⟨rfl, rfl⟩

theorem test_overflow_saturates :
    exec (.pulse 310) { rxFull .syncA3 none with ovfCount := 65535 } =
      .next
        { rxFull .unknown none with ovfCount := 65535, out := { overflow := some .syncA, frameEnd := true } } := rfl

/-! ### The Token Buffer (V2.5) -/

theorem test_pop :
    exec .pop { State.reset with fifo := [.syncB, .bit false, .bit true] } =
        .next { State.reset with fifo := [.bit false, .bit true], out := { ret := .popped (some .syncB) } } ∧
      exec .pop State.reset = .next { State.reset with out := { ret := .popped none } } := ⟨rfl, rfl⟩

theorem test_len :
    exec .len { State.reset with fifo := [.syncB, .bit false, .bit true] } =
      .next { State.reset with fifo := [.syncB, .bit false, .bit true], out := { ret := .length 3 } } := rfl

theorem test_read_ovf :
    exec .readOvf { State.reset with ovfCount := 3 } = .next { State.reset with ovfCount := 3, out := { ret := .overflows 3 } } := rfl

/-- V2.5 rows 9 and 10: the fullness test is made at the moment of the push. -/
theorem test_pop_then_pulse :
    (run [.pop, .pulse 310] (rxFull .bitA3 (some false))).map (fun r => (r.1.fifo, r.1.rxState, r.1.ovfCount)) =
        some ([.bit true, .bit false], .bitA0, 0) ∧
      (run [.pulse 310, .pop] (rxFull .bitA3 (some false))).map (fun r => (r.1.fifo, r.1.rxState, r.1.ovfCount)) =
        some ([.bit true], .unknown, 1) := ⟨rfl, rfl⟩

theorem test_token_rows :
    exec .tokenSynca State.reset = .next { State.reset with out := { ret := .token .syncA } } ∧
      exec .tokenSyncb State.reset = .next { State.reset with out := { ret := .token .syncB } } ∧
      exec .tokenBit0 State.reset = .next { State.reset with out := { ret := .token (.bit false) } } ∧
      exec .tokenBit1 State.reset = .next { State.reset with out := { ret := .token (.bit true) } } := ⟨rfl, rfl, rfl, rfl⟩

/-! ### The transmitter (V2.6) -/

theorem test_frame12 :
    frameBits legacy = bits "001011110110" ∧ frameBits ⟨.legacy12, ⟨0x80, false, 0, false⟩⟩ = bits "100000000110" ∧
      exec (.frame12 0x01 false) State.reset =
        .next { State.reset with out := { ret := .frame (bits "000000010110") } } := by
  refine ⟨by decide, by decide, rfl⟩

theorem test_frame32 :
    frameBits modern = bits "10101011110011011110111110111010" ∧
      exec (.frame32 ⟨0x800000, false, 0x8, false⟩) State.reset =
        .next { State.reset with out := { ret := .frame (bits "10000000000000000000000010001000") } } := by
  refine ⟨by decide, rfl⟩

/-- The first three symbols of `legacy`'s waveform, and its size (V2.6). -/
theorem test_waveform_legacy :
    (waveform legacy 1).length = 51 ∧ totalDuration (waveform legacy 1) = 45150 ∧
      ((waveform legacy 1).map segPulse).take 10 = [350, -10850, 350, -1050, 350, -1050, 350, -1050, 350, -1050] := by decide

theorem test_waveform_modern :
    ((waveform modern 1).take 12).map segPulse = [-10150, 310, -2643, 310, -1236, 310, -215, 310, -215, 310, -1236, 310] ∧
      totalDuration sync32 = 13413 ∧ totalDuration (bit32 true) = 2071 ∧ totalDuration (bit32 false) = 2071 := by decide

theorem test_transmit_repeats_zero :
    exec (.transmitLegacy12 legacy.fields 0) State.reset =
        .next { State.reset with txQueue := [.seg ⟨.high, 350⟩, .final .low], txBusy := true } ∧
      exec (.transmitModern32 modern.fields 0) State.reset =
        .next { State.reset with txQueue := [.final .low], txBusy := true } := ⟨rfl, rfl⟩

theorem test_transmit_refused :
    exec (.transmitBadversion 0 legacy.fields 1) State.reset = .next State.reset ∧
      exec (.transmitBusy 1 legacy.fields 1) busy = .next busy ∧ exec (.transmitLegacy12 legacy.fields 1) busy = .next busy ∧
      exec (.transmitModern32 legacy.fields 1) busy = .next busy := ⟨rfl, rfl, rfl, rfl⟩

theorem test_txstep :
    exec .txstep busy =
        .next
          { busy with pin := .high, trace := [⟨.high, 350⟩], txQueue := [.seg ⟨.low, 10850⟩, .final .low] } ∧
      exec .txstep State.reset = .fault .txIdle := ⟨rfl, rfl⟩

theorem test_txstep_final :
    exec .txstepFinal atEnd = .next { atEnd with pin := .low, txQueue := [], txBusy := false } ∧
      exec .txstepFinal State.reset = .fault .txIdle := ⟨rfl, rfl⟩

theorem test_txstep_malformed :
    exec .txstep { State.reset with txBusy := true } = .fault .txQueueMalformed := rfl

/-- T4: the symbols' segments and final levels. -/
theorem test_symbols :
    exec .txBit12One State.reset =
        .next { State.reset with out := { ret := .symbol [⟨.high, 350⟩, ⟨.low, 1050⟩, ⟨.high, 1050⟩, ⟨.low, 350⟩] none } } ∧
      exec .txBit32Zero State.reset =
        .next { State.reset with out := { ret := .symbol [⟨.low, 215⟩, ⟨.high, 310⟩, ⟨.low, 1236⟩, ⟨.high, 310⟩] none } } ∧
      exec .txTerm12 State.reset = .next { State.reset with out := { ret := .symbol [⟨.high, 350⟩] (some .low) } } ∧
      exec .txTerm32 State.reset = .next { State.reset with out := { ret := .symbol [] (some .low) } } := ⟨rfl, rfl, rfl, rfl⟩

/-- V2.9. -/
theorem test_reset :
    exec .reset
        { busy with rxState := .bitA2, pending := some true, fifo := [.syncA, .bit true], ovfCount := 7, pin := .high } =
      .next State.reset := rfl

/-! ### The host's parser and text codec (V2.7, V2.8) -/

theorem test_parse_legacy :
    exec (.parseToken (.bit false)) (parsing .b (bits "10000000011")) =
        .next
          { State.reset with
            out := { ret := .command (some ⟨.legacy12, ⟨0x80, false, 0, false⟩⟩) } } ∧
      exec (.parseToken (.bit false)) (parsing .b (bits "00101111111")) =
        .next { State.reset with out := { ret := .command none, incompleteFrame := true } } := ⟨rfl, rfl⟩

theorem test_parse_modern :
    exec (.parseToken (.bit false)) (parsing .a (bits "1010101111001101111011111011101")) =
      .next { State.reset with out := { ret := .command (some modern) } } := rfl

theorem test_parse_sync :
    exec (.parseToken .syncB) (parsing .b (bits "0010111")) =
        .next { parsing .b [] with out := { ret := .command none, incompleteFrame := true } } ∧
      exec (.parseToken (.bit true)) State.reset = .next { State.reset with out := { ret := .command none } } := ⟨rfl, rfl⟩

theorem test_line_parse :
    parseLine (ascii "2:abcdef:1:a:1") = some modern ∧ parseLine (ascii "1:00002F:0:0:0") = some legacy ∧
      parseLine (ascii "1:ABCDEF:1:A:1") = some ⟨.legacy12, ⟨0xABCDEF, true, 0xA, true⟩⟩ := by decide

/-- The failing lines of V2.8. -/
theorem test_line_malformed :
    (["3:000000:0:0:0", "0:000000:0:0:0", "F:000000:0:0:0", "2:ABCDEF:1:A:", "2:ABCDEF:1:A:11", "2:ABCDEF:1;A:1", "2-ABCDEF:1:A:1",
          "2:ABCDEG:1:A:1", "2:ABCDEF:2:A:1", "2:ABCDEF:1:A:2", "2:ABCDEF:1:G:1", ""].all
        fun s => (parseLine (ascii s)).isNone && !lineGrammar (ascii s)) = true := by decide

theorem test_line_print :
    printLine modern = ascii "2:ABCDEF:1:A:1\n" ∧ printLine ⟨.modern32, ⟨0x0A, false, 0xB, true⟩⟩ = ascii "2:00000A:0:B:1\n" := by
  decide

/-! ### The step -/

theorem test_step_runs_a_call :
    step { State.reset with input := [.pulse 0b1101100001011010, .pop] } =
        .next { rx .syncA1 none with input := [.pop] } ∧
      step { State.reset with input := [.rxstep 0b1100000000] } = .refused (.undecodable .stateCode) ∧
      step State.reset = .next State.reset ∧ step atEnd = .next { atEnd with pin := .low, txQueue := [], txBusy := false } :=
  ⟨rfl, rfl, rfl, rfl⟩

/-- A word of the table, placed, is the next instruction, and its row is the one that applies. -/
theorem test_fetch_word :
    step (State.reset.withFetchWord 10 0b0110010011) = .next (rx .bitA3 (some true)) ∧
      step (State.reset.withFetchWord 34 0b0010101010111100110111101111110101) =
        .next { State.reset with txQueue := [.final .low], txBusy := true } := ⟨rfl, rfl⟩

/-! ### Tables against rules -/

/-- The priority order of the table (R72) over every key that holds codes, by state. -/
theorem test_table_priority :
    ([RxState.unknown, .syncA1, .syncA2, .syncA3, .bitA0, .bitA1, .bitA2, .bitA3, .bitB0, .bitB1, .bitB2, .bitB3].all fun st =>
      [Category.l5, .l4, .l3, .l2, .l1, .inv, .h1, .h2, .h3, .h4, .h5].all fun c =>
        [none, some false, some true].all fun p =>
          rxTableIndex (rxRowOf st c p) == rxTableFirst (keyOf st c p)) = true := by decide

/-! ### Witnesses: the hypotheses of the statements can be met -/

/-- Bounds of every bucket (R83). -/
theorem witness_ClassifyBuckets :
    (classify 1, classify 511, classify 512, classify 2047, classify 2048, classify 4095) = (.h1, .h1, .h2, .h2, .h3, .h3) ∧
      (classify 4096, classify 8191, classify 8192, classify 16383, classify 16384) = (.h4, .h4, .h5, .h5, .inv) := by decide

theorem witness_ClassifyLaws :
    (0 : Int) < 1 ∧ (1 : Int) ≤ 16383 ∧ (16383 : Int) < 16384 ∧ classify 16383 ≠ .inv ∧ classify (-1) ≠ .inv := by decide

theorem witness_MagnitudeRowsReturnTheCategory : 16384 ≤ 16384 ∧ 16384 ≤ 40000 := by decide

/-- The margins' ends and the values just outside them, for the smallest, a middle and the largest nominal duration (R252). -/
theorem witness_NominalMargins :
    (classify 1, classify 511, classify 0, classify 512) = (classify 350, classify 350, .inv, .h2) ∧
      (classify 2048, classify 4095, classify 2047, classify 4096) = (classify 2643, classify 2643, .h2, .h4) ∧
      (classify 8192, classify 16383, classify 8191, classify 16384) = (classify 10850, classify 10150, .h4, .inv) := by decide

theorem witness_UnknownLeavesOnlyOnL5 :
    (rx .unknown none).rxState = .unknown ∧ classify (-8192) = .l5 ∧ classify (-16383) = .l5 ∧ classify (-8191) ≠ .l5 ∧
      classify (-16384) ≠ .l5 ∧ classify 0 ≠ .l5 ∧ classify (-8191) ≠ .inv ∧ classify 8192 ≠ .inv := by decide

theorem witness_SyncPatternFollowed :
    ((rx .syncA1 none).rxState = .syncA1 ∧ classify 511 = .h1) ∧ ((rx .syncA2 none).rxState = .syncA2 ∧ classify (-2048) = .l3) ∧
      ((rx .syncA2 none).rxState = .syncA2 ∧ classify (-2047) = .l2) ∧ ((rx .syncA3 none).rxState = .syncA3 ∧ classify 1 = .h1) := by
  decide

theorem witness_FormatABitAssembled :
    ((rx .bitA0 none).rxState = .bitA0 ∧ classify (-512) = .l2) ∧ ((rx .bitA0 none).rxState = .bitA0 ∧ classify (-511) = .l1) ∧
      ((rx .bitA1 (some true)).rxState = .bitA1 ∧ classify 310 = .h1) ∧
      ((rx .bitA2 (some true)).rxState = .bitA2 ∧ (rx .bitA2 (some true)).pending = some true ∧ classify (-215) = .l1) ∧
      ((rx .bitA2 (some false)).rxState = .bitA2 ∧ (rx .bitA2 (some false)).pending = some false ∧ classify (-1236) = .l2) := by
  decide

theorem witness_FormatBBitAssembled :
    ((rx .bitB0 none).rxState = .bitB0 ∧ classify 350 = .h1) ∧ ((rx .bitB1 none).rxState = .bitB1 ∧ classify (-1050) = .l2) ∧
      ((rx .bitB2 none).rxState = .bitB2 ∧ classify 512 = .h2) ∧ ((rx .bitB2 none).rxState = .bitB2 ∧ classify 511 = .h1) := by
  decide

theorem witness_BitTokensEmitted :
    ((rx .bitA3 (some false)).rxState = .bitA3 ∧ (rx .bitA3 (some false)).pending = some false ∧ classify 310 = .h1) ∧
      ((rxFull .bitB3 (some true)).rxState = .bitB3 ∧ (rxFull .bitB3 (some true)).pending = some true ∧ classify (-350) = .l1) ∧
      ((rx .bitB3 (some false)).rxState = .bitB3 ∧ (rx .bitB3 (some false)).pending = some false ∧ classify (-1050) = .l2) := by
  decide

theorem witness_MismatchReturnsToUnknown :
    (RxState.bitA0 ≠ .unknown ∧ listedPair .bitA0 (classify (-10150)) none = false ∧ classify (-10150) ≠ .inv) ∧
      (RxState.bitA3 ≠ .unknown ∧ listedPair .bitA3 (classify 310) none = false) ∧
      (RxState.bitB3 ≠ .unknown ∧ listedPair .bitB3 (classify (-350)) (some false) = false) ∧
      (RxState.bitA2 ≠ .unknown ∧ listedPair .bitA2 (classify 20000) (some true) = false) := by decide

theorem witness_RowIsThePulseOfItsCategory :
    rowCategoryOf (.bita3H1 true) = some (classify 310) ∧ rowCategoryOf (.dflt .bitA0 .inv none) = some (classify 0) ∧
      rowCategoryOf .bitb3L2P0 = some (classify (-2047)) := by decide

/-- An overflow, an invalid pulse outside `Unknown`, and a push. -/
theorem witness_PulseSignals :
    (rxStep (classify 310) (.duration 310) (rxFull .syncA3 none)).out.signals .overflow = true ∧
      (rxStep (classify 0) (.duration 0) (rx .bitB3 (some false))).out.signals .invalidPulse = true ∧
      (rxStep (classify 310) (.duration 310) (rx .syncA3 none)).out.pushed ≠ none := by decide

theorem witness_PulseFrame :
    (rxStep (classify 310) (.duration 310) (rx .syncA3 none)).out.pushed ≠ none ∧
      (rxStep (classify 310) (.duration 310) (rx .syncA3 none)).out.overflow = none := by decide

theorem witness_TwoL5ReachSyncA1 :
    (classify (-8192) = .l5 ∧ classify (-16383) = .l5) ∧ (rx .unknown none).rxState = .unknown ∧
      (rx .bitB1 none).rxState ≠ .unknown := by decide

theorem witness_BitsAssembledWithoutCounting :
    ((rxFull .bitB0 none).rxState = afterFrame .legacy12 ∧ (rxFull .bitB0 none).fifo.length + 0 ≤ (rxFull .bitB0 none).params.tokenCap) ∧
      ((rx .bitA0 none).rxState = afterFrame .modern32 ∧ (rx .bitA0 none).fifo.length + 64 ≤ (rx .bitA0 none).params.tokenCap) := by
  decide

/-- 13 and 33 tokens are exactly the room that a frame takes (R246). -/
theorem witness_CleanFrameReceived :
    State.reset.rxState = .unknown ∧ State.reset.fifo.length + (frameTokens legacy).length = 13 ∧
      State.reset.fifo.length + (frameTokens modern).length = 33 ∧ 33 ≤ State.reset.params.tokenCap := by decide

theorem witness_ModernFrameLostOutsideUnknown : (rxFull .bitB0 none).rxState ≠ .unknown ∧ (rx .syncA1 none).rxState ≠ .unknown := by
  decide

/-- P3: five repetitions of a Legacy12 command need room for 39 tokens; none need none. -/
theorem witness_EverySecondRepetitionLost :
    State.reset.rxState = .unknown ∧ State.reset.fifo.length + (5 + 1) / 2 * (frameTokens legacy).length = 39 ∧
      39 ≤ State.reset.params.tokenCap ∧ State.reset.fifo.length + (0 + 1) / 2 * (frameTokens modern).length = 0 := by decide

theorem witness_ModernThenLegacyBothReceived :
    State.reset.rxState = .unknown ∧ State.reset.fifo.length + 46 ≤ State.reset.params.tokenCap := by decide

theorem witness_FullBufferKeepsItsContent : (rxFull .bitA0 none).fifo.length = (rxFull .bitA0 none).params.tokenCap := by decide

theorem witness_PopTakesTheOldest : (rxFull .bitA0 none).fifo = .syncA :: [.bit true] ∧ State.reset.fifo = [] := by decide

theorem witness_TokenBytes :
    ((0x40 : Byte) ≠ 0x41 ∧ (0x40 : Byte) ≠ 0x42 ∧ (0x40 : Byte) ≠ 0x30 ∧ (0x40 : Byte) ≠ 0x31) ∧
      ((0x32 : Byte) ≠ 0x41 ∧ (0x32 : Byte) ≠ 0x42 ∧ (0x32 : Byte) ≠ 0x30 ∧ (0x32 : Byte) ≠ 0x31) := by decide

/-- A run without `RESET` that pushes and pops. -/
theorem witness_FirstInFirstOut :
    Instr.reset ∉ [.pulse 310, .pop, .len] ∧
      (run [.pulse 310, .pop, .len] (rx .syncA3 none)).map (fun r => (pops r.2, pushes r.2, r.1.fifo)) =
        some ([.syncA], [.syncA], []) := ⟨by simp, rfl⟩

/-- A run without `RESET` that drops a token. -/
theorem witness_OverflowCounterCounts :
    Instr.reset ∉ [.pulse 310, .readOvf] ∧ (rxFull .syncA3 none).ovfCount ≤ (rxFull .syncA3 none).params.ovfMax ∧
      (run [.pulse 310, .readOvf] (rxFull .syncA3 none)).map (fun r => (drops r.2, r.1.ovfCount)) = some (1, 1) :=
  ⟨by simp, by decide, rfl⟩

theorem witness_TransmitLoadsTheWaveform : State.reset.txBusy = false := rfl

theorem witness_TransmitRefusalChangesNothing :
    busy.txBusy = true ∧ State.reset.txBusy = false ∧ ((0 : BitVec 4) ≠ 1 ∧ (0 : BitVec 4) ≠ 2) ∧
      ((3 : BitVec 4) ≠ 1 ∧ (3 : BitVec 4) ≠ 2) ∧ ((15 : BitVec 4) ≠ 1 ∧ (15 : BitVec 4) ≠ 2) := by decide

theorem witness_RowElsewhereIsTheRowThatApplies :
    State.reset.txBusy = false ∧ (3 : BitVec 4) ≠ 1 ∧ (3 : BitVec 4) ≠ 2 ∧ busy.txBusy = true ∧
      busy.txQueue = .seg ⟨.high, 350⟩ :: [.seg ⟨.low, 10850⟩, .final .low] := by decide

/-- T8: `device 0xABCD2F` sends what `device 0x2F` sends. -/
theorem witness_LegacyIgnoresOtherFields :
    (0xABCD2F : BitVec 24).extractLsb' 0 8 = (0x2F : BitVec 24).extractLsb' 0 8 ∧
      exec (.transmitLegacy12 ⟨0xABCD2F, true, 0xA, true⟩ 1) State.reset =
        exec (.transmitLegacy12 ⟨0x2F, false, 0, true⟩ 1) State.reset := ⟨by decide, rfl⟩

/-- The idle times at which the first pulse stays `L5` (6233) and is invalid (6234), and none. -/
theorem witness_WaveformOnTheWire :
    (0 + 10150 ≤ 16383 ∧ classify (-10150) = .l5) ∧ (6233 + 10150 ≤ 16383 ∧ classify (-16383) = .l5) ∧
      (16383 < 6234 + 10150 ∧ classify (-16384) = .inv) := by decide

theorem witness_TxStepPutsTheNextSegment :
    (busy.txBusy = true ∧ busy.txQueue = .seg ⟨.high, 350⟩ :: [.seg ⟨.low, 10850⟩, .final .low]) ∧ State.reset.txBusy = false := by
  decide

theorem witness_TxStepEndsTheWaveform : atEnd.txBusy = true ∧ atEnd.txQueue = [.final .low] := by decide

theorem witness_WaveformPutOutWhole :
    State.reset.txBusy = false ∧ (waveform ⟨.legacy12, legacy.fields⟩ 0).length = 1 ∧
      (waveform ⟨.modern32, modern.fields⟩ 0).length = 0 := by decide

/-- A wait of 10850 with a longest wait of 1000, and one that fits. -/
theorem witness_WaitSplitKeepsTheTime : 0 < 1000 ∧ splitWait 1000 2500 2500 = [1000, 1000, 500] ∧ splitWait 1 1 1 = [1] := by
  refine ⟨by decide, rfl, rfl⟩

theorem witness_BitTokenKeptOrSkipped :
    State.reset.parser.mode = .none ∧ ((parsing .a []).parser.mode = .a ∧ (parsing .a []).parser.bits.length ≠ 31) ∧
      ((parsing .a (List.replicate 30 true)).parser.mode = .a ∧ (parsing .a (List.replicate 30 true)).parser.bits.length ≠ 31) ∧
      ((parsing .b (List.replicate 10 true)).parser.mode = .b ∧ (parsing .b (List.replicate 10 true)).parser.bits.length ≠ 11) := by
  decide

theorem witness_LegacyFrameDecoded :
    ((parsing .b (bits "00101111011")).parser.bits.length = 11 ∧
        ((parsing .b (bits "00101111011")).parser.bits ++ [true]).drop 8 = [false, true, true, true]) ∧
      ((parsing .b (bits "00101111111")).parser.bits.length = 11 ∧
        ((parsing .b (bits "00101111111")).parser.bits ++ [true]).drop 8 ≠ [false, true, true, true]) := by decide

theorem witness_ModernFrameDecoded :
    ((parsing .a (bits "1010101111001101111011111011101")).parser.bits.length = 31 ∧
        (parsing .a (bits "1010101111001101111011111011101")).parser.bits[24]? = some true ∧
        (parsing .a (bits "1010101111001101111011111011101")).parser.bits[25]? = some false) ∧
      ((parsing .a (bits "1010101111001101111011110011101")).parser.bits.length = 31 ∧
        (parsing .a (bits "1010101111001101111011110011101")).parser.bits[24]? ≠ some true) := by decide

theorem witness_RoundTrip :
    legacy.valid = true ∧ modern.valid = true ∧ State.reset.rxState = .unknown ∧ State.reset.fifo = [] ∧
      (frameTokens modern).length ≤ State.reset.params.tokenCap ∧ State.reset.parser = {} := by decide

/-- Three repetitions of a Legacy12 command need room for 26 tokens, which there is. -/
theorem witness_RepeatedRoundTrip :
    State.reset.rxState = .unknown ∧ State.reset.fifo = [] ∧ (3 + 1) / 2 * (frameTokens legacy).length = 26 ∧
      26 ≤ State.reset.params.tokenCap ∧ State.reset.parser = {} := by decide

theorem witness_LineParsedByGrammar :
    lineGrammar (ascii "2:ABCDEF:1:A:1") = true ∧ lineGrammar (ascii "3:ABCDEF:1:A:1") = false ∧ lineGrammar [] = false := by decide

theorem witness_DecodeInvertsEncode :
    ctx.params.wf = true ∧ (WellFormed ctx.params (.pulse (-32768)) = true ∧ Instr.selectedBy (.pulse (-32768)) ctx = true) ∧
      (WellFormed ctx.params (.transmitBadversion 15 modern.fields 255) = true ∧
        Instr.selectedBy (.transmitBadversion 15 modern.fields 255) ctx = true) ∧
      (WellFormed ctx.params (.transmitBusy 0 modern.fields 0) = true ∧
        Instr.selectedBy (.transmitBusy 0 modern.fields 0) { ctx with txBusy := true } = true) ∧
      Instr.selectedBy .txstepFinal { ctx with txBusy := true, onlyFinal := true } = true := by decide

theorem witness_ReservedKeysRejected :
    12 ≤ (12 : BitVec 4).toNat ∧ ((11 : BitVec 4).toNat < 12 ∧ 11 ≤ (11 : BitVec 4).toNat) ∧
      ((11 : BitVec 4).toNat < 12 ∧ (10 : BitVec 4).toNat < 11 ∧ (1 : BitVec 2) = 1) := by decide

theorem witness_StepRunsTheDecodedCall :
    ({ State.reset with input := [.txstep, .pop] } : State).input = .txstep :: [.pop] ∧
      decode { params := State.reset.params, txBusy := State.reset.txBusy, onlyFinal := onlyFinal State.reset } .txstep = .ok .txstep ∧
      decode { params := State.reset.params, txBusy := State.reset.txBusy, onlyFinal := onlyFinal State.reset } (.token 0) =
        .error .tokenByte := ⟨rfl, rfl, rfl⟩

theorem witness_StepWithNoCallWaiting : (busy.input = [] ∧ busy.txBusy = true) ∧ State.reset.input = [] ∧ State.reset.txBusy = false := by
  decide

theorem witness_RunEndsWhenTheQueueIsOut : Inv busy ∧ busy.input = [] ∧ Inv State.reset ∧ State.reset.input = [] :=
  ⟨⟨⟨rfl, by decide, by decide⟩, rfl, rfl⟩, rfl, ⟨⟨rfl, by decide, by decide⟩, ⟨rfl, rfl⟩, rfl⟩, rfl⟩

theorem witness_StepKeepsTheInvariant :
    Inv busy ∧ step busy = .next { busy with pin := .high, trace := [⟨.high, 350⟩], txQueue := [.seg ⟨.low, 10850⟩, .final .low] } :=
  ⟨⟨⟨rfl, by decide, by decide⟩, rfl, rfl⟩, rfl⟩

theorem witness_OnlyOwnersWrite :
    exec .len State.reset = .next { State.reset with out := { ret := .length 0 } } ∧ agentOf .len ≠ some .rxp ∧
      Instr.len ≠ .reset ∧ Instr.len ≠ .pop ∧ agentOf .len ≠ some .txa ∧ agentOf .len ≠ some .host ∧ agentOf .len ≠ some .software :=
  ⟨rfl, by decide, by decide, by decide, by decide, by decide, by decide⟩

theorem witness_ReceiveAndTransmitCommute :
    agentOf (.pulse 310) = some .rxp ∧ agentOf .pop = some .cons ∧ agentOf .txstep = some .txa ∧
      (agentOf (.transmitLegacy12 legacy.fields 1) = some .host ∧ Instr.transmitLegacy12 legacy.fields 1 ≠ .reset) ∧
      (run [.pulse 310, .txstep] busy).isSome = true ∧ (run [.txstep, .pulse 310] busy).isSome = true := by
  refine ⟨rfl, rfl, rfl, ⟨rfl, by simp⟩, rfl, rfl⟩

end Sys2Proof.Machine.Tests
end

