-- ==== Sys2Proof/Proofs/TokenOrder.lean ====
section
/-! PROOF. Proofs/TokenOrder.lean: tokens leave in exactly the order they entered (R42). One step of any instruction but `RESET` keeps
the balance of popped, held and pushed tokens; a run adds these balances up. -/

namespace Sys2Proof.Machine

/-- One step's balance of tokens (R42): what it popped, then what is held after it, is what was held before it, then what it pushed. -/
def TokensConserved (s t : State) : Prop :=
  (poppedToken t.out).toList ++ t.fifo = s.fifo ++ t.out.pushed.toList

theorem Outputs.quiet_pushed {o : Outputs} (h : o.quiet = true) : o.pushed = none := by
  simp_all [Outputs.quiet]

theorem Outputs.quiet_poppedToken {o : Outputs} (h : o.quiet = true) : poppedToken o = none := by
  simp_all [Outputs.quiet]

/-- A step that pops and pushes nothing and leaves the buffer alone. -/
theorem tokensConserved_of_fifo_eq {s t : State} (hfifo : t.fifo = s.fifo) (hpop : poppedToken t.out = none)
    (hpush : t.out.pushed = none) : TokensConserved s t := by
  simp [TokensConserved, hfifo, hpop, hpush]

theorem tokensConserved_of_quiet {s t : State} (hfifo : t.fifo = s.fifo) (hq : t.out.quiet = true) : TokensConserved s t :=
  tokensConserved_of_fifo_eq hfifo (Outputs.quiet_poppedToken hq) (Outputs.quiet_pushed hq)

/-- R114: the token is pushed at the end of the buffer, or dropped and never held. -/
theorem tokensConserved_emitted (s : State) (tok : Token) (next : RxState) : TokensConserved s (emitted s tok next) := by
  by_cases room : s.fifo.length < s.params.tokenCap
  · simp [TokensConserved, emitted, room, poppedToken]
  · simp [TokensConserved, emitted, room, poppedToken]

theorem tokensConserved_rxStep (c : Category) (info : PulseInfo) (s : State) : TokensConserved s (rxStep c info s) := by
  obtain ⟨n, p, -, -, hmove⟩ | ⟨n, tok, -, -, hemit⟩ | ⟨-, hmismatch⟩ := rxStep_cases c info s
  · rw [hmove]
    exact tokensConserved_of_quiet rfl rfl
  · rw [hemit]
    exact tokensConserved_emitted s tok n
  · rw [hmismatch]
    exact tokensConserved_of_fifo_eq rfl rfl rfl

/-- R131, R132: the token returned is the head taken off the buffer, and an empty buffer gives none. -/
theorem tokensConserved_pop (s : State) :
    TokensConserved s { s with fifo := s.fifo.tail, out := { ret := .popped s.fifo.head? } } := by
  cases hfifo : s.fifo with
  | nil => simp [TokensConserved, poppedToken, hfifo]
  | cons tok rest => simp [TokensConserved, poppedToken, hfifo]

theorem tokensConserved_txAdvance {s t : State} (h : txAdvance s = .next t) : TokensConserved s t := by
  obtain ⟨g, rest, -, -, hput⟩ | ⟨level, -, -, hfinish⟩ | ⟨-, hidle⟩ | ⟨-, -, hbad⟩ := txAdvance_cases s
  · cases hput.symm.trans h
    exact tokensConserved_of_quiet rfl rfl
  · cases hfinish.symm.trans h
    exact tokensConserved_of_quiet rfl rfl
  · cases hidle.symm.trans h
  · cases hbad.symm.trans h

/-- The step lemma of R42: only `RESET`, which empties the buffer, can lose a token. -/
theorem exec_tokensConserved {i : Instr} {s t : State} (hi : i ≠ .reset) (h : exec i s = .next t) : TokensConserved s t := by
  obtain ⟨-, -, -, -, o, he, hq⟩ | ⟨-, c, info, he⟩ | ⟨-, e, he⟩ | ⟨-, he⟩ | ⟨-, -, he | ⟨c, n, -, he⟩⟩ | ⟨-, he⟩ | ⟨hreset, -⟩ |
    ⟨-, p, o, he, hq, -⟩ := exec_cases i s
  · -- only an output
    cases he.symm.trans h
    exact tokensConserved_of_quiet rfl hq
  · -- a receive step
    cases he.symm.trans h
    exact tokensConserved_rxStep c info s
  · -- the end of an emitting step
    cases he.symm.trans h
    exact tokensConserved_emitted s _ _
  · -- `POP`
    cases he.symm.trans h
    exact tokensConserved_pop s
  · -- a `TRANSMIT` refused
    cases he.symm.trans h
    exact tokensConserved_of_quiet rfl rfl
  · -- a `TRANSMIT` accepted
    cases he.symm.trans h
    exact tokensConserved_of_quiet rfl rfl
  · -- a `TXSTEP`
    exact tokensConserved_txAdvance (he.symm.trans h)
  · -- `RESET`
    exact absurd hreset hi
  · -- a step of the parser
    cases he.symm.trans h
    exact tokensConserved_of_quiet rfl hq

/-- The balance of a run, given in parts: that of its first step, then that of the rest. -/
theorem pops_append_fifo_cons {s t u : State} {os : List Outputs} (hstep : TokensConserved s t)
    (hrun : pops os ++ u.fifo = t.fifo ++ pushes os) :
    pops (t.out :: os) ++ u.fifo = s.fifo ++ pushes (t.out :: os) :=
  calc pops (t.out :: os) ++ u.fifo
      = (poppedToken t.out).toList ++ (pops os ++ u.fifo) := by rw [pops_cons, List.append_assoc]
    _ = ((poppedToken t.out).toList ++ t.fifo) ++ pushes os := by rw [hrun, List.append_assoc]
    _ = (s.fifo ++ t.out.pushed.toList) ++ pushes os := by rw [hstep]
    _ = s.fifo ++ pushes (t.out :: os) := by rw [pushes_cons, List.append_assoc]

/-- Settles O27, by induction over the run: every step but `RESET` conserves the tokens, and the balances add up. -/
theorem firstInFirstOut : Obligations.FirstInFirstOut := by
  intro is s t os hreset hrun
  refine run_induct (P := fun s os u => pops os ++ u.fifo = s.fifo ++ pushes os) (· ≠ .reset) ?_ ?_
    (fun i hi hi' => hreset (hi' ▸ hi)) hrun
  · intro s
    simp
  · intro i s t os u hi hexec ih
    exact pops_append_fifo_cons (exec_tokensConserved hi hexec) ih

end Sys2Proof.Machine
end

