-- ==== Sys2Proof/Proofs/ClassifyBuckets.lean ====
section
/-! PROOF. Proofs/ClassifyBuckets.lean: the bucket of a magnitude fixes the categories of both durations that have it (R80 to R82). -/

namespace Sys2Proof.Machine

/-- The bucket is found from the magnitude alone; the sign is reapplied to it (R80). -/
theorem classify_of_magnitude_eq {p m : Nat} (h : magnitude p = m) :
    classify p = signedCategory .high m ∧ classify (-(p : Int)) = signedCategory .low m :=
  ⟨h ▸ classify_ofNat p, h ▸ classify_neg p⟩

/-- Settles O2, bucket by bucket: the bounds give the magnitude's bucket, and the bucket gives both categories. -/
theorem classifyBuckets : Obligations.ClassifyBuckets := by
  refine ⟨classify_ofNat 0, fun p => ⟨?_, ?_, ?_, ?_, ?_, ?_⟩⟩
  · rintro ⟨lower, upper⟩
    exact classify_of_magnitude_eq (magnitude_one lower upper)
  · rintro ⟨lower, upper⟩
    exact classify_of_magnitude_eq (magnitude_two lower upper)
  · rintro ⟨lower, upper⟩
    exact classify_of_magnitude_eq (magnitude_three lower upper)
  · rintro ⟨lower, upper⟩
    exact classify_of_magnitude_eq (magnitude_four lower upper)
  · rintro ⟨lower, upper⟩
    exact classify_of_magnitude_eq (magnitude_five lower upper)
  · intro lower
    exact classify_of_magnitude_eq (magnitude_invalid lower)

end Sys2Proof.Machine
end

/-! PROOF. The receive step's transitions (41_rx_step.md): what a `PULSE` and the table's row for it do on a pair that R66 lists, and
what a pulse does on any other pair, in `Unknown` and outside it. -/

namespace Sys2Proof.Machine

/-! ### Listed pairs: the pulse and its row -/

section ListedPair

variable {s : State} {d : Int} {i : Instr} {st n : RxState} {c : Category} {p q : Pending} {t : Token}

/-- A listed transition that emits nothing, as a `PULSE` and as a row of its category (R91 to R100, R102 to R105). -/
theorem pulse_and_row_moved (hst : s.rxState = st) (hp : s.pending = p) (hd : classify d = c) (hi : rowCategoryOf i = some c)
    (hl : listedPair st c p = true) (hnext : rxNext st c p = .go n q) :
    exec (.pulse d) s = .next (moved s n q) ∧ exec i s = .next (moved s n q) := by
  subst hst hp hd
  rw [exec_pulse, exec_receiveRow hi, rxStep_go _ hl hnext, rxStep_go _ hl hnext]
  exact ⟨rfl, rfl⟩

/-- A transition that emits a token, as a `PULSE` and as a row of its category (R94, R95, R101, R106, R107 with R114). -/
theorem pulse_and_row_emitted (hst : s.rxState = st) (hp : s.pending = p) (hd : classify d = c) (hi : rowCategoryOf i = some c)
    (hnext : rxNext st c p = .emit n t) :
    exec (.pulse d) s = .next (emitted s t n) ∧ exec i s = .next (emitted s t n) := by
  subst hst hp hd
  rw [exec_pulse, exec_receiveRow hi, rxStep_emit _ hnext, rxStep_emit _ hnext]
  exact ⟨rfl, rfl⟩

end ListedPair

/-! ### The other pairs -/

section OtherPair

variable {s : State} {c : Category}

/-- A mismatch outside `Unknown` always signals `frame_end` and `Desync` (R109, R116). -/
theorem rxStep_desync (info : PulseInfo) (hs : s.rxState ≠ .unknown) (hl : listedPair s.rxState c s.pending = false) :
    rxStep c info s =
      { s with
        rxState := .unknown, pending := none,
        out := { frameEnd := true, desync := some (s.rxState, c), invalidPulse := invalidEvent c info } } := by
  rw [rxStep_mismatch c info s hl]
  simp [hs]

/-- `Unknown` ignores every category but `L5`, and signals no `frame_end` since it was there already (R110). -/
theorem rxStep_ignored (info : PulseInfo) (hs : s.rxState = .unknown) (hc : c ≠ .l5) :
    rxStep c info s =
      { s with rxState := .unknown, pending := none, out := { invalidPulse := invalidEvent c info } } := by
  have hl : listedPair s.rxState c s.pending = false := by simp [hs, listedPair, hc]
  rw [rxStep_mismatch c info s hl]
  simp [hs]

theorem invalidEvent_of_ne {info : PulseInfo} (hc : c ≠ .inv) : invalidEvent c info = none := if_neg hc

end OtherPair

/-! ### The statements -/

/-- Settles O11: outside `Unknown` the pulse and the row `DEFAULT` are the same desynchronizing step, and `InvalidPulse` is the event of
category 0 alone. -/
theorem mismatchReturnsToUnknown : Obligations.MismatchReturnsToUnknown := by
  intro s d st pend hs hl
  constructor
  · rw [exec_pulse, rxStep_desync _ hs hl]
    rfl
  · intro hvalid
    rw [exec_receiveRow rfl, rxStep_desync _ hs hl, invalidEvent_of_ne hvalid]

/-- Settles O6: `L5` is the one pair listed for `Unknown`, and every other category is ignored there. -/
theorem unknownLeavesOnlyOnL5 : Obligations.UnknownLeavesOnlyOnL5 := by
  intro s d pend hs
  refine ⟨?_, ?_, ?_⟩
  · intro hd
    exact pulse_and_row_moved hs rfl hd rfl rfl rfl
  · intro hd
    rw [exec_pulse, rxStep_ignored _ hs hd]
    rfl
  · intro hd hvalid
    rw [exec_receiveRow rfl, rxStep_ignored _ hs hd, invalidEvent_of_ne hvalid]

/-- Settles O7, transition by transition: two moves of the shared pattern, then the emission of either format's sync token. -/
theorem syncPatternFollowed : Obligations.SyncPatternFollowed := by
  intro s d pend
  refine ⟨?_, ?_, ?_, ?_⟩
  · -- R92
    exact fun hs hd => pulse_and_row_moved hs rfl hd rfl rfl rfl
  · -- R93
    exact fun hs hd => pulse_and_row_moved hs rfl hd rfl rfl rfl
  · -- R94
    exact fun hs hd => pulse_and_row_emitted hs rfl hd rfl rfl
  · -- R95
    exact fun hs hd => pulse_and_row_emitted hs rfl hd rfl rfl

/-- Settles O8, transition by transition: only the two confirmations at `BitA2` depend on the pending bit. -/
theorem formatABitAssembled : Obligations.FormatABitAssembled := by
  intro s d pend
  refine ⟨?_, ?_, ?_, ?_, ?_⟩
  · -- R96
    exact fun hs hd => pulse_and_row_moved hs rfl hd rfl rfl rfl
  · -- R97
    exact fun hs hd => pulse_and_row_moved hs rfl hd rfl rfl rfl
  · -- R98
    exact fun hs hd => pulse_and_row_moved hs rfl hd rfl rfl rfl
  · -- R99
    exact fun hs hp hd => pulse_and_row_moved hs hp hd rfl rfl rfl
  · -- R100
    exact fun hs hp hd => pulse_and_row_moved hs hp hd rfl rfl rfl

/-- Settles O9, transition by transition: none of them depends on the pending bit. -/
theorem formatBBitAssembled : Obligations.FormatBBitAssembled := by
  intro s d pend
  refine ⟨?_, ?_, ?_, ?_⟩
  · -- R102
    exact fun hs hd => pulse_and_row_moved hs rfl hd rfl rfl rfl
  · -- R103
    exact fun hs hd => pulse_and_row_moved hs rfl hd rfl rfl rfl
  · -- R104
    exact fun hs hd => pulse_and_row_moved hs rfl hd rfl rfl rfl
  · -- R105
    exact fun hs hd => pulse_and_row_moved hs rfl hd rfl rfl rfl

/-- Settles O10: each of the three transitions emits the bit that is pending; `emitted` says what R114 makes of it with room and
without. -/
theorem bitTokensEmitted : Obligations.BitTokensEmitted := by
  intro s d b
  refine ⟨?_, ?_, ?_⟩
  · -- R101
    exact fun hs hp hd => pulse_and_row_emitted hs hp hd rfl rfl
  · -- R106
    exact fun hs hp hd => pulse_and_row_emitted hs hp hd rfl rfl
  · -- R107
    exact fun hs hp hd => pulse_and_row_emitted hs hp hd rfl rfl

end Sys2Proof.Machine

/-! PROOF. The consumer's operations on the Token Buffer (42_token_fifo.md): what `POP`, `LEN` and `READ_OVF` return, and the one register,
`fifo`, that one of them writes. -/

namespace Sys2Proof.Machine

/-- `POP` whatever the buffer holds (R131, R132): its two cases differ only in what the head and the tail of the buffer are. -/
theorem exec_pop (s : State) :
    exec .pop s = .next { s with fifo := s.fifo.tail, out := { ret := .popped s.fifo.head? } } := rfl

theorem exec_pop_of_cons {s : State} {t : Token} {rest : List Token} (h : s.fifo = t :: rest) :
    exec .pop s = .next { s with fifo := rest, out := { ret := .popped (some t) } } := by
  rw [exec_pop, h, List.tail_cons, List.head?_cons]

/-- The tail of an empty buffer is the buffer itself, so nothing but the output changes (R132). -/
theorem exec_pop_of_nil {s : State} (h : s.fifo = []) :
    exec .pop s = .next { s with out := { ret := .popped none } } := by
  rw [exec_pop, h, List.tail_nil, List.head?_nil]

theorem exec_len (s : State) : exec .len s = .next (returning s (.length s.fifo.length)) := rfl

theorem exec_readOvf (s : State) : exec .readOvf s = .next (returning s (.overflows s.ovfCount)) := rfl

theorem returning_eq (s : State) (r : Ret) : returning s r = { s with out := { ret := r } } := rfl

/-- Settles O24: the two cases of the buffer, empty and not. -/
theorem popTakesTheOldest : Obligations.PopTakesTheOldest :=
  ⟨fun _ _ _ hfifo => exec_pop_of_cons hfifo, fun _ hfifo => exec_pop_of_nil hfifo⟩

/-- Settles O25: both reads are nothing but an answer, and an answer replaces the outputs and no register. -/
theorem statusReadsChangeNothing : Obligations.StatusReadsChangeNothing := by
  intro s
  constructor
  · rw [exec_len, returning_eq]
  · rw [exec_readOvf, returning_eq]

end Sys2Proof.Machine

/-! PROOF. The host's Command Parser (44_host_parser.md) before a frame is complete: what a sync token does, what a bit token does, and
when a frame is in progress. -/

namespace Sys2Proof.Machine

theorem exec_parseToken_syncA (s : State) : exec (.parseToken .syncA) s = .next (parseSync .a s) := rfl

theorem exec_parseToken_syncB (s : State) : exec (.parseToken .syncB) s = .next (parseSync .b s) := rfl

theorem exec_parseToken_bit (s : State) (b : Bool) : exec (.parseToken (.bit b)) s = .next (parseBit b s) := rfl

/-- The old frame decides only the event; the new one starts empty (R182, R203). -/
theorem parseSync_eq (mode : ParserMode) (s : State) :
    parseSync mode s =
      { s with
        parser := { mode := mode, bits := [] },
        out := { ret := .command none, incompleteFrame := frameInProgress s.parser } } := rfl

/-- R203's condition with the two lengths of R181 written out. -/
theorem frameInProgress_iff (p : Parser) :
    frameInProgress p = true ↔ (p.mode = .a ∧ p.bits.length < 32) ∨ (p.mode = .b ∧ p.bits.length < 12) := by
  obtain ⟨mode, bits⟩ := p
  simp only [frameInProgress, Bool.and_eq_true, bne_iff_ne, decide_eq_true_eq]
  cases mode with
  | none => simp
  | a => simp [frameLength, Config.bitsA]
  | b => simp [frameLength, Config.bitsB]

theorem parseBit_of_mode_none {s : State} (hmode : s.parser.mode = .none) (b : Bool) :
    parseBit b s = { s with out := { ret := .command none } } := by
  rw [parseBit, hmode, returning_eq]

/-- A bit is kept, and nothing else happens, unless it is the last one its frame waits for (R181). -/
theorem parseBit_of_not_last {s : State} {mode : ParserMode} (hmode : s.parser.mode = mode) (started : mode ≠ .none)
    (notLast : s.parser.bits.length + 1 ≠ frameLength mode) (b : Bool) :
    parseBit b s =
      { s with parser := { mode := mode, bits := s.parser.bits ++ [b] }, out := { ret := .command none } } := by
  have hlen : (s.parser.bits ++ [b]).length ≠ frameLength mode := by
    rwa [List.length_append, List.length_singleton]
  cases mode with
  | none => exact absurd rfl started
  | a => rw [parseBit, hmode]; exact if_neg hlen
  | b => rw [parseBit, hmode]; exact if_neg hlen

/-- Settles O43: both sync tokens are one step of the parser, and the event is the condition of R203. -/
theorem syncTokenStartsAFrame : Obligations.SyncTokenStartsAFrame := by
  intro s
  refine ⟨?_, ?_, frameInProgress_iff s.parser⟩
  · rw [exec_parseToken_syncA, parseSync_eq]
  · rw [exec_parseToken_syncB, parseSync_eq]

/-- Settles O44: skipped with no frame in progress; kept when it is not the thirty-second of Format A or the twelfth of Format B. -/
theorem bitTokenKeptOrSkipped : Obligations.BitTokenKeptOrSkipped := by
  intro s b
  rw [exec_parseToken_bit]
  refine ⟨fun hmode => ?_, fun hmode hlen => ?_, fun hmode hlen => ?_⟩
  · rw [parseBit_of_mode_none hmode]
  · have notLast : s.parser.bits.length + 1 ≠ frameLength .a := fun h => hlen (Nat.succ.inj h)
    rw [parseBit_of_not_last hmode (by decide) notLast]
  · have notLast : s.parser.bits.length + 1 ≠ frameLength .b := fun h => hlen (Nat.succ.inj h)
    rw [parseBit_of_not_last hmode (by decide) notLast]

end Sys2Proof.Machine

/-! PROOF. The machine's step (00_scope.md, 70_reset_and_hazards.md): which row it runs, and what every row and so every step keeps: the
machine's invariant, and the registers the row's agent does not own. -/

namespace Sys2Proof.Machine

/-! ### The step and the row it runs -/

theorem setInput_self (s : State) : setInput s s.input = s := rfl

/-- Taking a call off the list changes nothing that the choice of its row reads. -/
theorem decodeCtx_setInput (s : State) (calls : List Call) : decodeCtx (setInput s calls) = decodeCtx s := rfl

theorem fetch_of_cons {s : State} {c : Call} {rest : List Call} (h : s.input = c :: rest) :
    fetch s = some (c, setInput s rest) := by
  rw [fetch, h]
  rfl

theorem step_of_decode_ok {s : State} {c : Call} {rest : List Call} {i : Instr} (h : s.input = c :: rest)
    (hd : decode (decodeCtx s) c = .ok i) : step s = exec i (setInput s rest) := by
  rw [step, fetch_of_cons h]
  simp only [decodeCtx_setInput, hd]

theorem step_of_decode_error {s : State} {c : Call} {rest : List Call} {e : DecodeError} (h : s.input = c :: rest)
    (hd : decode (decodeCtx s) c = .error e) : step s = .refused (.undecodable e) := by
  rw [step, fetch_of_cons h]
  simp only [decodeCtx_setInput, hd]

/-- The two rows of a `TXSTEP` call have one meaning, so the choice between them does not matter (log 6). -/
theorem exec_txstepFinal (s : State) : exec .txstepFinal s = exec .txstep s := rfl

theorem step_of_busy {s : State} (h : s.input = []) (hb : s.txBusy = true) : step s = exec .txstep s := by
  have hf : fetch s = some (.txstep, s) := by rw [fetch, h]; exact if_pos hb
  simp only [step, hf, decode]
  split
  · rfl
  · rfl

theorem step_of_idle {s : State} (h : s.input = []) (hb : s.txBusy = false) : step s = .next (idle s) := by
  have hf : fetch s = none := by rw [fetch, h]; simp [hb]
  simp only [step, hf]

/-- Everything a step that goes on can be: the state held, or a row run in the state with some calls left. -/
theorem step_next_cases {s t : State} (h : step s = .next t) : t = idle s ∨ ∃ i calls, exec i (setInput s calls) = .next t := by
  cases hin : s.input with
  | nil =>
    cases hb : s.txBusy with
    | false =>
      rw [step_of_idle hin hb] at h
      cases h
      exact .inl rfl
    | true =>
      rw [step_of_busy hin hb] at h
      exact .inr ⟨.txstep, s.input, h⟩
  | cons c rest =>
    cases hd : decode (decodeCtx s) c with
    | ok i =>
      rw [step_of_decode_ok hin hd] at h
      exact .inr ⟨i, rest, h⟩
    | error e =>
      rw [step_of_decode_error hin hd] at h
      cases h

/-- Settles O54: what the decoder says of the oldest call decides between the row run and the refusal. -/
theorem stepRunsTheDecodedCall : Obligations.StepRunsTheDecodedCall :=
  fun _ _ _ hin => ⟨fun _ hd => step_of_decode_ok hin hd, fun _ hd => step_of_decode_error hin hd⟩

/-- Settles O55: the two cases of `tx_busy`. -/
theorem stepWithNoCallWaiting : Obligations.StepWithNoCallWaiting :=
  fun _ hin => ⟨step_of_busy hin, step_of_idle hin⟩

/-! ### The invariant -/

theorem sameRx.refl (s : State) : sameRx s s := ⟨rfl, rfl, rfl, rfl⟩

theorem sameTx.refl (s : State) : sameTx s s := ⟨rfl, rfl, rfl, rfl⟩

theorem sameRest.refl (s : State) : sameRest s s := ⟨rfl, rfl, rfl⟩

/-- The end of an emitting step leaves the transmit side and the rest alone, and so does a receive step (R54). -/
theorem emitted_keeps (s : State) (t : Token) (n : RxState) : sameTx s (emitted s t n) ∧ sameRest s (emitted s t n) := by
  unfold emitted
  split
  · exact ⟨sameTx.refl s, sameRest.refl s⟩
  · exact ⟨sameTx.refl s, sameRest.refl s⟩

theorem rxStep_keeps (c : Category) (info : PulseInfo) (s : State) :
    sameTx s (rxStep c info s) ∧ sameRest s (rxStep c info s) := by
  obtain ⟨n, p, -, -, h⟩ | ⟨n, t, -, -, h⟩ | ⟨-, h⟩ := rxStep_cases c info s
  · rw [h]
    exact ⟨sameTx.refl s, sameRest.refl s⟩
  · rw [h]
    exact emitted_keeps s t n
  · rw [h]
    exact ⟨sameTx.refl s, sameRest.refl s⟩

/-- The transmit side's invariant reads the transmit registers only. -/
theorem TxInv.congr {s t : State} (h : TxInv s) (same : sameTx s t) : TxInv t := by
  obtain ⟨hpin, hqueue, hbusy, -⟩ := same
  rwa [TxInv, hpin, hqueue, hbusy] at h

/-- A new receive side, the rest of the machine being the same. -/
theorem Inv.of_rxInv {s t : State} (h : Inv s) (hrx : RxInv t) (htx : sameTx s t) (hrest : sameRest s t) : Inv t := by
  obtain ⟨-, hinv, hparser⟩ := h
  exact ⟨hrx, hinv.congr htx, hrest.1 ▸ hparser⟩

/-- What is left of a waveform after its first segment is still a waveform's rest (R166). -/
theorem txQueueWf_tail {g : Segment} {rest : List TxEntry} (h : txQueueWf (.seg g :: rest) = true) : txQueueWf rest = true := by
  rw [txQueueWf, Bool.and_eq_true] at h
  exact h.2

theorem txQueueWf_final {level : Level} (h : txQueueWf [.final level] = true) : level = .low := eq_of_beq h

theorem txInv_of_busy {s : State} (hb : s.txBusy = true) : TxInv s ↔ txQueueWf s.txQueue = true := by
  rw [TxInv, if_pos hb]

theorem txInv_of_idle {s : State} (hb : s.txBusy = false) : TxInv s ↔ s.txQueue = [] ∧ s.pin = .low := by
  rw [TxInv, hb]
  exact Iff.rfl

/-- Everything a `TXSTEP` that goes on can be: the next segment put out, or the waveform ended (R166, R167). -/
theorem txAdvance_next {s t : State} (h : txAdvance s = .next t) :
    (∃ g rest, s.txBusy = true ∧ s.txQueue = .seg g :: rest ∧
      t = { s with pin := g.level, trace := s.trace ++ [g], txQueue := rest, out := {} }) ∨
    (∃ level, s.txBusy = true ∧ s.txQueue = [.final level] ∧
      t = { s with pin := level, txQueue := [], txBusy := false, out := {} }) := by
  obtain ⟨g, rest, hb, hq, hput⟩ | ⟨level, hb, hq, hfinish⟩ | ⟨-, hidle⟩ | ⟨-, -, hbad⟩ := txAdvance_cases s
  · cases hput.symm.trans h
    exact .inl ⟨g, rest, hb, hq, rfl⟩
  · cases hfinish.symm.trans h
    exact .inr ⟨level, hb, hq, rfl⟩
  · cases hidle.symm.trans h
  · cases hbad.symm.trans h

theorem inv_txAdvance {s t : State} (h : Inv s) (ht : txAdvance s = .next t) : Inv t := by
  obtain ⟨hrx, htx, hparser⟩ := h
  obtain ⟨g, rest, hb, hq, rfl⟩ | ⟨level, hb, hq, rfl⟩ := txAdvance_next ht
  · rw [txInv_of_busy hb, hq] at htx
    refine ⟨hrx, (txInv_of_busy ?_).mpr (txQueueWf_tail htx), hparser⟩
    exact hb
  · rw [txInv_of_busy hb, hq] at htx
    exact ⟨hrx, (txInv_of_idle rfl).mpr ⟨rfl, txQueueWf_final htx⟩, hparser⟩

/-- The step lemma of the invariant: every row keeps it. -/
theorem inv_exec {i : Instr} {s t : State} (h : Inv s) (ht : exec i s = .next t) : Inv t := by
  have ⟨hrx, htx, hparser⟩ := h
  have ⟨hpend, hfifo, hovf⟩ := hrx
  obtain ⟨-, -, -, -, o, he, -⟩ | ⟨-, c, info, he⟩ | ⟨-, e, he⟩ | ⟨-, he⟩ | ⟨-, -, he | ⟨c, n, -, he⟩⟩ | ⟨-, he⟩ | ⟨-, he⟩ |
    ⟨-, p, o, he, -, hp⟩ := exec_cases i s
  · -- only an output
    cases he.symm.trans ht
    exact ⟨hrx, htx, hparser⟩
  · -- a receive step
    cases he.symm.trans ht
    exact h.of_rxInv (rxInv_rxStep c info hrx) (rxStep_keeps c info s).1 (rxStep_keeps c info s).2
  · -- the end of an emitting step
    cases he.symm.trans ht
    exact h.of_rxInv (rxInv_emitted _ (emissionResult_target e) hfifo hovf) (emitted_keeps s _ _).1 (emitted_keeps s _ _).2
  · -- `POP`
    cases he.symm.trans ht
    exact ⟨⟨hpend, fifoDrop_bound hfifo, hovf⟩, htx, hparser⟩
  · -- a `TRANSMIT` refused
    cases he.symm.trans ht
    exact ⟨hrx, htx, hparser⟩
  · -- a `TRANSMIT` accepted
    cases he.symm.trans ht
    exact ⟨hrx, (txInv_of_busy rfl).mpr (txLoad_wf c n), hparser⟩
  · -- a `TXSTEP`
    exact inv_txAdvance h (he.symm.trans ht)
  · -- `RESET`
    cases he.symm.trans ht
    exact ⟨⟨rfl, Nat.zero_le _, Nat.zero_le _⟩, ⟨rfl, rfl⟩, hparser⟩
  · -- a step of the parser
    cases he.symm.trans ht
    exact ⟨hrx, htx, hp hparser⟩

/-- Settles O58: a step that holds the state writes no register, and any other is a row run with the same registers. -/
theorem stepKeepsTheInvariant : Obligations.StepKeepsTheInvariant := by
  intro s t hinv hstep
  obtain rfl | ⟨i, calls, hexec⟩ := step_next_cases hstep
  · exact hinv
  · have hinv' : Inv (setInput s calls) := hinv
    exact inv_exec hinv' hexec

/-- Settles O57: at reset nothing is pending, held, counted, waiting to be put out or parsed. -/
theorem invariantAtReset : Obligations.InvariantAtReset :=
  ⟨⟨rfl, Nat.zero_le _, Nat.zero_le _⟩, ⟨rfl, rfl⟩, rfl⟩

/-! ### Who writes what -/

theorem txAdvance_keeps {s t : State} (h : txAdvance s = .next t) : sameRx s t ∧ sameRest s t := by
  obtain ⟨g, rest, -, -, rfl⟩ | ⟨level, -, -, rfl⟩ := txAdvance_next h
  · exact ⟨sameRx.refl s, sameRest.refl s⟩
  · exact ⟨sameRx.refl s, sameRest.refl s⟩

/-- Settles O59, over everything a row can do: what a row writes is its agent's, so the conditions on the agent exclude the registers
that change. -/
theorem onlyOwnersWrite : Obligations.OnlyOwnersWrite := by
  intro i s t ht
  obtain ⟨-, -, -, -, o, he, -⟩ | ⟨hrx, c, info, he⟩ | ⟨hrx, e, he⟩ | ⟨rfl, he⟩ | ⟨hhost, -, he | ⟨c, n, -, he⟩⟩ | ⟨htx, he⟩ |
    ⟨rfl, he⟩ | ⟨hsoft, p, o, he, -, -⟩ := exec_cases i s
  · -- only an output
    cases he.symm.trans ht
    exact ⟨fun _ _ => ⟨rfl, rfl, rfl⟩, fun _ _ _ => rfl, fun _ _ => rfl, fun _ => rfl, fun _ _ => ⟨rfl, rfl⟩, fun _ => rfl, rfl,
      rfl⟩
  · -- a receive step
    cases he.symm.trans ht
    obtain ⟨⟨hpin, hqueue, hbusy, htrace⟩, hparser, hparams, hinput⟩ := rxStep_keeps c info s
    exact ⟨fun h => absurd hrx h, fun h => absurd hrx h, fun _ _ => hpin.symm, fun _ => htrace.symm,
      fun _ _ => ⟨hqueue.symm, hbusy.symm⟩, fun _ => hparser.symm, hparams.symm, hinput.symm⟩
  · -- the end of an emitting step
    cases he.symm.trans ht
    obtain ⟨⟨hpin, hqueue, hbusy, htrace⟩, hparser, hparams, hinput⟩ := emitted_keeps s (emissionResult e).1 (emissionResult e).2
    exact ⟨fun h => absurd hrx h, fun h => absurd hrx h, fun _ _ => hpin.symm, fun _ => htrace.symm,
      fun _ _ => ⟨hqueue.symm, hbusy.symm⟩, fun _ => hparser.symm, hparams.symm, hinput.symm⟩
  · -- `POP`
    cases he.symm.trans ht
    exact ⟨fun _ _ => ⟨rfl, rfl, rfl⟩, fun _ h => absurd rfl h, fun _ _ => rfl, fun _ => rfl, fun _ _ => ⟨rfl, rfl⟩,
      fun _ => rfl, rfl, rfl⟩
  · -- a `TRANSMIT` refused
    cases he.symm.trans ht
    exact ⟨fun _ _ => ⟨rfl, rfl, rfl⟩, fun _ _ _ => rfl, fun _ _ => rfl, fun _ => rfl, fun _ _ => ⟨rfl, rfl⟩, fun _ => rfl, rfl,
      rfl⟩
  · -- a `TRANSMIT` accepted
    cases he.symm.trans ht
    exact ⟨fun _ _ => ⟨rfl, rfl, rfl⟩, fun _ _ _ => rfl, fun _ _ => rfl, fun _ => rfl, fun _ h => absurd hhost h, fun _ => rfl,
      rfl, rfl⟩
  · -- a `TXSTEP`
    obtain ⟨⟨hst, hpend, hfifo, hovf⟩, hparser, hparams, hinput⟩ := txAdvance_keeps (he.symm.trans ht)
    exact ⟨fun _ _ => ⟨hst.symm, hpend.symm, hovf.symm⟩, fun _ _ _ => hfifo.symm, fun h => absurd htx h, fun h => absurd htx h,
      fun h => absurd htx h, fun _ => hparser.symm, hparams.symm, hinput.symm⟩
  · -- `RESET`
    cases he.symm.trans ht
    exact ⟨fun _ h => absurd rfl h, fun _ _ h => absurd rfl h, fun _ h => absurd rfl h, fun _ => rfl, fun _ h => absurd rfl h,
      fun _ => rfl, rfl, rfl⟩
  · -- a step of the parser
    cases he.symm.trans ht
    exact ⟨fun _ _ => ⟨rfl, rfl, rfl⟩, fun _ _ _ => rfl, fun _ _ => rfl, fun _ => rfl, fun _ _ => ⟨rfl, rfl⟩,
      fun h => absurd hsoft h, rfl, rfl⟩

end Sys2Proof.Machine

/-! PROOF. The transmitter (43_transmit.md): `TRANSMIT` accepted or refused, the two rules of `TXSTEP`, and from these how a whole
waveform is put out. -/

namespace Sys2Proof.Machine

/-! ### TRANSMIT: every row is the same operation on a version code -/

theorem exec_transmitLegacy12 (f : CmdFields) (n : Nat) (s : State) :
    exec (.transmitLegacy12 f n) s = .next (txTransmit 1 f n s) := rfl

theorem exec_transmitModern32 (f : CmdFields) (n : Nat) (s : State) :
    exec (.transmitModern32 f n) s = .next (txTransmit 2 f n s) := rfl

theorem exec_transmitBadversion (v : BitVec 4) (f : CmdFields) (n : Nat) (s : State) :
    exec (.transmitBadversion v f n) s = .next (txTransmit v f n s) := rfl

/-- The row's own test of `tx_busy` is the one the operation makes anyway (R168, log 6). -/
theorem exec_transmitBusy (v : BitVec 4) (f : CmdFields) (n : Nat) (s : State) :
    exec (.transmitBusy v f n) s = .next (txTransmit v f n s) := by
  refine congrArg Host.Outcome.next ?_
  cases hb : s.txBusy with
  | false => rfl
  | true => rw [txTransmit, hb]; rfl

theorem txTransmit_busy {s : State} (hb : s.txBusy = true) (v : BitVec 4) (f : CmdFields) (n : Nat) :
    txTransmit v f n s = { s with out := {} } := by
  rw [txTransmit, if_pos hb]
  rfl

theorem txTransmit_version {s : State} (hb : s.txBusy = false) (v : Version) (f : CmdFields) (n : Nat) :
    txTransmit v.code f n s =
      { s with txQueue := txLoad { version := v, fields := f } n, txBusy := true, out := {} } := by
  rw [txTransmit, hb, Version.ofCode_code]
  rfl

theorem txTransmit_no_version {s : State} (hb : s.txBusy = false) {v : BitVec 4} (h1 : v ≠ 1) (h2 : v ≠ 2) (f : CmdFields)
    (n : Nat) : txTransmit v f n s = { s with out := {} } := by
  have hidle : ¬s.txBusy = true := by simp [hb]
  rw [txTransmit, if_neg hidle, Version.ofCode_none h1 h2]
  rfl

/-- Settles O29: idle, each format's row loads its own waveform. -/
theorem transmitLoadsTheWaveform : Obligations.TransmitLoadsTheWaveform := by
  intro s f n hb
  rw [exec_transmitLegacy12, exec_transmitModern32]
  exact ⟨congrArg _ (txTransmit_version hb .legacy12 f n), congrArg _ (txTransmit_version hb .modern32 f n)⟩

/-- Settles O30: busy refuses every row, and idle the operation refuses a code that names no format. -/
theorem transmitRefusalChangesNothing : Obligations.TransmitRefusalChangesNothing := by
  intro s v f n
  rw [exec_transmitBusy, exec_transmitLegacy12, exec_transmitModern32, exec_transmitBadversion]
  refine ⟨fun hb => ?_, fun hb h1 h2 => congrArg _ (txTransmit_no_version hb h1 h2 f n)⟩
  simp only [txTransmit_busy hb, and_self]

/-- The fields that no bit of a Legacy12 frame is read from do not reach its waveform (R150, R162). -/
theorem txLoad_legacy12_congr {f g : CmdFields} (hdevice : f.device.extractLsb' 0 8 = g.device.extractLsb' 0 8)
    (hstate : f.state = g.state) (n : Nat) :
    txLoad { version := .legacy12, fields := f } n = txLoad { version := .legacy12, fields := g } n := by
  have hframe : frame12Bits f = frame12Bits g := by rw [frame12Bits, frame12Bits, hdevice, hstate]
  simp only [txLoad, waveform, rep, frameBits, hframe]

/-- Settles O32: the two commands have the same frame, so the same waveform is loaded. -/
theorem legacyIgnoresOtherFields : Obligations.LegacyIgnoresOtherFields := by
  intro s f g n hdevice hstate
  rw [exec_transmitLegacy12, exec_transmitLegacy12]
  refine congrArg Host.Outcome.next ?_
  cases hb : s.txBusy with
  | true => rw [txTransmit_busy hb, txTransmit_busy hb]
  | false =>
    have hload : ∀ h : CmdFields, txTransmit 1 h n s =
        { s with txQueue := txLoad { version := .legacy12, fields := h } n, txBusy := true, out := {} } :=
      fun h => txTransmit_version hb .legacy12 h n
    rw [hload, hload, txLoad_legacy12_congr hdevice hstate]

/-! ### TXSTEP -/

theorem exec_txstep (s : State) : exec .txstep s = txAdvance s := rfl

/-- R166: the segment at the head is put out. -/
theorem txAdvance_seg {s : State} {g : Segment} {rest : List TxEntry} (hb : s.txBusy = true) (hq : s.txQueue = .seg g :: rest) :
    txAdvance s = .next { s with pin := g.level, trace := s.trace ++ [g], txQueue := rest, out := {} } := by
  rw [txAdvance, if_pos hb, hq]
  refine congrArg Host.Outcome.next ?_
  rw [txPutSegment, hb]
  simp only [setOut, setTx, putOut, hb]

/-- R167: the marker ends the waveform. -/
theorem txAdvance_final {s : State} {level : Level} (hb : s.txBusy = true) (hq : s.txQueue = [.final level]) :
    txAdvance s = .next { s with pin := level, txQueue := [], txBusy := false, out := {} } := by
  rw [txAdvance, if_pos hb, hq]
  rfl

theorem txAdvance_idle {s : State} (hb : s.txBusy = false) : txAdvance s = .fault .txIdle := by
  rw [txAdvance, hb]
  rfl

/-- Settles O39: the rule of a segment, and the fault of an idle transmitter. -/
theorem txStepPutsTheNextSegment : Obligations.TxStepPutsTheNextSegment :=
  ⟨fun _ _ _ hb hq => txAdvance_seg hb hq, fun _ hb => ⟨txAdvance_idle hb, txAdvance_idle hb⟩⟩

/-- Settles O40: both rows of the call have the one meaning. -/
theorem txStepEndsTheWaveform : Obligations.TxStepEndsTheWaveform :=
  fun _ _ hb hq => ⟨txAdvance_final hb hq, txAdvance_final hb hq⟩

/-- Settles O31: busy or idle, a row is the operation its call names, on the version code it carries (log 6). -/
theorem rowElsewhereIsTheRowThatApplies : Obligations.RowElsewhereIsTheRowThatApplies := by
  refine ⟨fun s f n hb => ⟨?_, ?_, ?_⟩, fun s g rest hb hq => txAdvance_seg hb hq⟩
  · rintro i (rfl | rfl)
    · rw [exec_transmitBusy]
      exact congrArg _ (txTransmit_version hb .legacy12 f n)
    · rw [exec_transmitBadversion]
      exact congrArg _ (txTransmit_version hb .legacy12 f n)
  · rintro i (rfl | rfl)
    · rw [exec_transmitBusy]
      exact congrArg _ (txTransmit_version hb .modern32 f n)
    · rw [exec_transmitBadversion]
      exact congrArg _ (txTransmit_version hb .modern32 f n)
  · intro v h1 h2
    rw [exec_transmitBusy, txTransmit_no_version hb h1 h2]

/-! ### A waveform put out -/

theorem sameRx.trans {s t u : State} (h : sameRx s t) (g : sameRx t u) : sameRx s u := by
  obtain ⟨h1, h2, h3, h4⟩ := h
  obtain ⟨g1, g2, g3, g4⟩ := g
  exact ⟨h1.trans g1, h2.trans g2, h3.trans g3, h4.trans g4⟩

theorem sameRest.trans {s t u : State} (h : sameRest s t) (g : sameRest t u) : sameRest s u := by
  obtain ⟨h1, h2, h3⟩ := h
  obtain ⟨g1, g2, g3⟩ := g
  exact ⟨h1.trans g1, h2.trans g2, h3.trans g3⟩

/-- A run of the transmitter: the segments put out in it, what it leaves in `tx_queue`, and all else it leaves alone. -/
structure PutsOut (is : List Instr) (s : State) (segs : List Segment) (rest : List TxEntry) (t : State) (os : List Outputs) :
    Prop where
  runs : run is s = some (t, os)
  trace : t.trace = s.trace ++ segs
  queue : t.txQueue = rest
  busy : t.txBusy = true
  rx : sameRx s t
  others : sameRest s t

/-- R166 for as many `TXSTEP`s as the queue's first segments, by induction over these. -/
theorem putsOut_txsteps (segs : List Segment) {rest : List TxEntry} {s : State} (hb : s.txBusy = true)
    (hq : s.txQueue = segs.map .seg ++ rest) :
    ∃ t os, PutsOut (List.replicate segs.length .txstep) s segs rest t os := by
  induction segs generalizing s with
  | nil => exact ⟨s, [], rfl, by simp, by simpa using hq, hb, sameRx.refl s, sameRest.refl s⟩
  | cons g segs ih =>
    have hstep := txAdvance_seg hb (show s.txQueue = .seg g :: (segs.map .seg ++ rest) from hq)
    have ⟨hrx, hrest⟩ := txAdvance_keeps hstep
    obtain ⟨t, os, hruns, htrace, hqueue, hbusy, hrx', hrest'⟩ :=
      ih (s := { s with pin := g.level, trace := s.trace ++ [g], txQueue := segs.map .seg ++ rest, out := {} }) hb rfl
    refine ⟨t, _, run_cons hstep hruns, ?_, hqueue, hbusy, hrx.trans hrx', hrest.trans hrest'⟩
    rw [htrace]
    exact List.append_assoc s.trace [g] segs

/-- `TRANSMIT` of a command and then some `TXSTEP`s: the first segments are put out, the others and the marker are left. -/
theorem putsOut_transmit {i : Instr} {c : Command} {n k : Nat} {s : State}
    (hi : exec i s = .next { s with txQueue := txLoad c n, txBusy := true, out := {} }) (hk : k ≤ (waveform c n).length) :
    ∃ t os,
      PutsOut (i :: List.replicate k .txstep) s ((waveform c n).take k) (((waveform c n).drop k).map .seg ++ [.final .low]) t
        os := by
  have hq : txLoad c n = ((waveform c n).take k).map .seg ++ (((waveform c n).drop k).map .seg ++ [.final .low]) := by
    rw [← List.append_assoc, ← List.map_append, List.take_append_drop]
    rfl
  obtain ⟨t, os, hruns, htrace, hqueue, hbusy, hrx, hrest⟩ :=
    putsOut_txsteps ((waveform c n).take k) (s := { s with txQueue := txLoad c n, txBusy := true, out := {} }) rfl hq
  rw [List.length_take_of_le hk] at hruns
  exact ⟨t, _, run_cons hi hruns, htrace, hqueue, hbusy, hrx, hrest⟩

/-- The row of a command's format, idle, loads its waveform (R160). -/
theorem exec_transmit_of_format {i : Instr} {c : Command} {f : CmdFields} {n : Nat} {s : State} (hb : s.txBusy = false)
    (h : i = .transmitLegacy12 f n ∧ c = { version := .legacy12, fields := f } ∨
      i = .transmitModern32 f n ∧ c = { version := .modern32, fields := f }) :
    exec i s = .next { s with txQueue := txLoad c n, txBusy := true, out := {} } := by
  obtain ⟨rfl, rfl⟩ | ⟨rfl, rfl⟩ := h
  · exact congrArg _ (txTransmit_version hb .legacy12 f n)
  · exact congrArg _ (txTransmit_version hb .modern32 f n)

/-- Settles O41: as many `TXSTEP`s as segments put out the whole waveform (by induction over it), and the one after them finds only the
marker. -/
theorem waveformPutOutWhole : Obligations.WaveformPutOutWhole := by
  intro f n s i c hb hformat
  have hi := exec_transmit_of_format hb hformat
  constructor
  · obtain ⟨t, os, h⟩ := putsOut_transmit hi (Nat.le_refl (waveform c n).length)
    have hmarker : t.txQueue = [.final .low] := by simpa using h.queue
    have htrace : t.trace = s.trace ++ waveform c n := by simpa using h.trace
    have hend := run_append h.runs (run_single ((exec_txstep t).trans (txAdvance_final h.busy hmarker)))
    rw [List.cons_append, ← List.replicate_succ'] at hend
    exact ⟨_, _, hend, htrace, rfl, rfl, rfl, h.rx, h.others⟩
  · intro k hk
    obtain ⟨t, os, h⟩ := putsOut_transmit hi hk
    exact ⟨t, os, h.runs, h.busy, h.trace⟩

/-! ### The end of a run -/

theorem core_run_succ {k : Nat} {s t : State} (h : step s = .next t) :
    Host.Core.run core (k + 1) s = Host.Core.run core k t := by
  have hcore : core.step s = .next t := h
  simp only [Host.Core.run, hcore]

/-- With no call waiting, each step takes one entry off `tx_queue`; the last is the marker, which ends the waveform (R167). -/
theorem core_run_ends {n : Nat} {s : State} (hinv : Inv s) (hin : s.input = []) (hn : s.txQueue.length = n) :
    ∃ t, Host.Core.run core n s = .next t ∧ runOver t ∧ t.pin = .low ∧ sameRx s t := by
  induction n generalizing s with
  | zero =>
    have hq : s.txQueue = [] := List.length_eq_zero_iff.mp hn
    obtain ⟨-, htx, -⟩ := hinv
    cases hb : s.txBusy with
    | true =>
      rw [txInv_of_busy hb, hq] at htx
      cases htx
    | false => exact ⟨s, rfl, ⟨hin, hb⟩, ((txInv_of_idle hb).mp htx).2, sameRx.refl s⟩
  | succ n ih =>
    have ⟨_, htx, _⟩ := hinv
    cases hb : s.txBusy with
    | false =>
      rw [((txInv_of_idle hb).mp htx).1] at hn
      cases hn
    | true =>
      have hstep : step s = txAdvance s := step_of_busy hin hb
      obtain ⟨g, rest, -, hq, hput⟩ | ⟨level, -, hq, hfinish⟩ | ⟨hidle, -⟩ | ⟨-, hbad, -⟩ := txAdvance_cases s
      · rw [hput] at hstep
        rw [hq] at hn
        obtain ⟨t, hrun, hover, hpin, hrx⟩ := ih (inv_txAdvance hinv hput) hin (Nat.succ.inj hn)
        exact ⟨t, (core_run_succ hstep).trans hrun, hover, hpin, (txAdvance_keeps hput).1.trans hrx⟩
      · rw [hfinish] at hstep
        rw [hq] at hn
        rw [txInv_of_busy hb, hq] at htx
        cases Nat.succ.inj hn
        exact ⟨_, core_run_succ hstep, ⟨hin, rfl⟩, txQueueWf_final htx, (txAdvance_keeps hfinish).1⟩
      · rw [hb] at hidle
        cases hidle
      · rw [txInv_of_busy hb, hbad] at htx
        cases htx

/-- Settles O56, by induction over the length of `tx_queue`. -/
theorem runEndsWhenTheQueueIsOut : Obligations.RunEndsWhenTheQueueIsOut :=
  fun _ hinv hin => core_run_ends hinv hin rfl

end Sys2Proof.Machine

/-! PROOF. The receive side and the transmit side (20_memory.md, section 5): a row of either reads and writes its own side only, so rows
of the two commute; and what the receive side's overflow counter counts (42_token_fifo.md). -/

namespace Sys2Proof.Machine

/-! ### Rows of the receive side -/

/-- A row of the receive agent is one receive step, or the end of one emitting step, whatever the state it runs in. -/
theorem exec_rxp {i : Instr} (h : agentOf i = some .rxp) :
    (∃ c info, ∀ s, exec i s = .next (rxStep c info s)) ∨
      ∃ t n, ∀ s, exec i s = .next (emitted s t n) := by
  cases i with
  | pulse d => exact .inl ⟨_, _, exec_pulse d⟩
  | pulsePushOrDrop e => exact .inr ⟨_, _, execPulsePushOrDrop_eq e⟩
  | unknownL5 _ | synca1H1 _ | synca2L3 _ | synca2L2 _ | synca3H1 _ | bita0L2 _ | bita0L1 _ | bita1H1 _ | bita2L1P1 | bita2L2P0
  | bita3H1 _ | bitb0H1 _ | bitb1L2 _ | bitb2H2 _ | bitb2H1 _ | bitb3L1P1 | bitb3L2P0 | unknownOther _ _ | dflt _ _ _ =>
    exact .inl ⟨_, _, fun s => exec_receiveRow rfl s⟩
  | _ => simp [agentOf] at h

/-- A row of the consumer is a pop, or one of the two status reads. -/
theorem eq_of_agentOf_cons {i : Instr} (h : agentOf i = some .cons) : i = .pop ∨ i = .len ∨ i = .readOvf := by
  cases i with
  | pop => exact .inl rfl
  | len => exact .inr (.inl rfl)
  | readOvf => exact .inr (.inr rfl)
  | _ => simp [agentOf] at h

section ReceiveSide

variable {s s' : State}

theorem emitted_congr (h : sameRx s s') (hp : s.params = s'.params) (t : Token) (n : RxState) :
    sameRx (emitted s t n) (emitted s' t n) := by
  obtain ⟨-, -, hfifo, hovf⟩ := h
  rw [emitted, emitted, hfifo, hp, hovf]
  split
  · exact ⟨rfl, rfl, rfl, rfl⟩
  · exact ⟨rfl, rfl, rfl, rfl⟩

/-- A receive step reads the receive registers and the capacity only: each of its three cases is decided by them and writes them alike. -/
theorem rxStep_congr (h : sameRx s s') (hp : s.params = s'.params) (c : Category) (info : PulseInfo) :
    sameRx (rxStep c info s) (rxStep c info s') := by
  have ⟨hst, hpend, hfifo, hovf⟩ := h
  obtain ⟨n, p, hnext, hl, hmove⟩ | ⟨n, t, hnext, hl, hemit⟩ | ⟨hl, hmismatch⟩ := rxStep_cases c info s
  · rw [hst, hpend] at hnext hl
    rw [hmove, rxStep_go info hl hnext]
    exact ⟨rfl, rfl, hfifo, hovf⟩
  · rw [hst, hpend] at hnext
    rw [hemit, rxStep_emit info hnext]
    exact emitted_congr h hp t n
  · rw [hst, hpend] at hl
    rw [hmismatch, rxStep_mismatch c info s' hl]
    exact ⟨rfl, rfl, hfifo, hovf⟩

/-- R54, the receive half: a receive-side row completes in every state and leaves the transmit side and the rest alone. -/
theorem exec_receiveSide {i : Instr} (h : agentOf i = some .rxp ∨ agentOf i = some .cons) (s : State) :
    ∃ t, exec i s = .next t ∧ sameTx s t ∧ sameRest s t := by
  rcases h with h | h
  · obtain ⟨c, info, he⟩ | ⟨t, n, he⟩ := exec_rxp h
    · exact ⟨_, he s, rxStep_keeps c info s⟩
    · exact ⟨_, he s, emitted_keeps s t n⟩
  · obtain rfl | rfl | rfl := eq_of_agentOf_cons h
    · exact ⟨_, exec_pop s, sameTx.refl s, sameRest.refl s⟩
    · exact ⟨_, exec_len s, sameTx.refl s, sameRest.refl s⟩
    · exact ⟨_, exec_readOvf s, sameTx.refl s, sameRest.refl s⟩

/-- What such a row makes of the receive side depends on the receive side only. -/
theorem exec_receiveSide_congr {i : Instr} {t t' : State} (h : agentOf i = some .rxp ∨ agentOf i = some .cons)
    (hrx : sameRx s s') (hp : s.params = s'.params) (ht : exec i s = .next t) (ht' : exec i s' = .next t') : sameRx t t' := by
  have ⟨hst, hpend, hfifo, hovf⟩ := hrx
  rcases h with h | h
  · obtain ⟨c, info, he⟩ | ⟨tok, n, he⟩ := exec_rxp h
    · cases (he s).symm.trans ht
      cases (he s').symm.trans ht'
      exact rxStep_congr hrx hp c info
    · cases (he s).symm.trans ht
      cases (he s').symm.trans ht'
      exact emitted_congr hrx hp tok n
  · obtain rfl | rfl | rfl := eq_of_agentOf_cons h
    · cases ht
      cases ht'
      exact ⟨hst, hpend, congrArg List.tail hfifo, hovf⟩
    · cases ht
      cases ht'
      exact hrx
    · cases ht
      cases ht'
      exact hrx

end ReceiveSide

/-! ### Rows of the transmit side -/

/-- A row of the host other than `RESET` is a `TRANSMIT` of some version code. -/
theorem exec_host {j : Instr} (h : agentOf j = some .host) (hj : j ≠ .reset) :
    ∃ v f n, ∀ s, exec j s = .next (txTransmit v f n s) := by
  cases j with
  | transmitLegacy12 f n => exact ⟨1, f, n, exec_transmitLegacy12 f n⟩
  | transmitModern32 f n => exact ⟨2, f, n, exec_transmitModern32 f n⟩
  | transmitBadversion v f n => exact ⟨v, f, n, exec_transmitBadversion v f n⟩
  | transmitBusy v f n => exact ⟨v, f, n, exec_transmitBusy v f n⟩
  | reset => exact absurd rfl hj
  | _ => simp [agentOf] at h

/-- A row of the transmit agent is a `TXSTEP`. -/
theorem exec_txa {j : Instr} (h : agentOf j = some .txa) (s : State) : exec j s = txAdvance s := by
  cases j with
  | txstep | txstepFinal => rfl
  | _ => simp [agentOf] at h

section TransmitSide

variable {s s' : State}

theorem txTransmit_keeps (v : BitVec 4) (f : CmdFields) (n : Nat) (s : State) :
    sameRx s (txTransmit v f n s) ∧ sameRest s (txTransmit v f n s) := by
  obtain h | ⟨c, -, h⟩ := txTransmit_cases v f n s
  · rw [h]
    exact ⟨sameRx.refl s, sameRest.refl s⟩
  · rw [h]
    exact ⟨sameRx.refl s, sameRest.refl s⟩

/-- `TRANSMIT` reads `tx_busy` only. -/
theorem txTransmit_congr (h : sameTx s s') (v : BitVec 4) (f : CmdFields) (n : Nat) :
    sameTx (txTransmit v f n s) (txTransmit v f n s') := by
  have ⟨hpin, _, hbusy, htrace⟩ := h
  rw [txTransmit, txTransmit, hbusy]
  split
  · exact h
  · split
    · exact ⟨hpin, rfl, rfl, htrace⟩
    · exact h

/-- `TXSTEP` reads the transmit registers only: what it does in one state it does in every state with the same. -/
theorem txAdvance_congr {t : State} (h : sameTx s s') (ht : txAdvance s = .next t) :
    ∃ t', txAdvance s' = .next t' ∧ sameTx t t' := by
  obtain ⟨hpin, hqueue, hbusy, htrace⟩ := h
  obtain ⟨g, rest, hb, hq, rfl⟩ | ⟨level, hb, hq, rfl⟩ := txAdvance_next ht
  · exact ⟨_, txAdvance_seg (hbusy ▸ hb) (hqueue ▸ hq), rfl, rfl, hbusy, congrArg (· ++ [g]) htrace⟩
  · exact ⟨_, txAdvance_final (hbusy ▸ hb) (hqueue ▸ hq), rfl, rfl, rfl, htrace⟩

/-- R54, the transmit half: a transmit-side row that completes leaves the receive side and the rest alone. -/
theorem exec_transmitSide {j : Instr} {t : State} (h : agentOf j = some .txa ∨ (agentOf j = some .host ∧ j ≠ .reset))
    (ht : exec j s = .next t) : sameRx s t ∧ sameRest s t := by
  obtain h | ⟨hhost, hreset⟩ := h
  · exact txAdvance_keeps ((exec_txa h s).symm.trans ht)
  · obtain ⟨v, f, n, he⟩ := exec_host hhost hreset
    cases (he s).symm.trans ht
    exact txTransmit_keeps v f n s

/-- Such a row completes in every state with the same transmit side, and what it makes of that side depends on it only. -/
theorem exec_transmitSide_congr {j : Instr} {t : State} (h : agentOf j = some .txa ∨ (agentOf j = some .host ∧ j ≠ .reset))
    (htx : sameTx s s') (ht : exec j s = .next t) : ∃ t', exec j s' = .next t' ∧ sameTx t t' := by
  obtain h | ⟨hhost, hreset⟩ := h
  · rw [exec_txa h] at ht ⊢
    exact txAdvance_congr htx ht
  · obtain ⟨v, f, n, he⟩ := exec_host hhost hreset
    cases (he s).symm.trans ht
    exact ⟨_, he s', txTransmit_congr htx v f n⟩

end TransmitSide

/-! ### The two orders -/

theorem sameTx.symm {s t : State} (h : sameTx s t) : sameTx t s := by
  obtain ⟨h1, h2, h3, h4⟩ := h
  exact ⟨h1.symm, h2.symm, h3.symm, h4.symm⟩

theorem sameTx.trans {s t u : State} (h : sameTx s t) (g : sameTx t u) : sameTx s u := by
  obtain ⟨h1, h2, h3, h4⟩ := h
  obtain ⟨g1, g2, g3, g4⟩ := g
  exact ⟨h1.trans g1, h2.trans g2, h3.trans g3, h4.trans g4⟩

theorem sameRx.symm {s t : State} (h : sameRx s t) : sameRx t s := by
  obtain ⟨h1, h2, h3, h4⟩ := h
  exact ⟨h1.symm, h2.symm, h3.symm, h4.symm⟩

theorem sameRest.symm {s t : State} (h : sameRest s t) : sameRest t s := by
  obtain ⟨h1, h2, h3⟩ := h
  exact ⟨h1.symm, h2.symm, h3.symm⟩

/-- A run of two rows completes exactly when both do, one after the other. -/
theorem run_pair_iff {i j : Instr} {s u : State} {os : List Outputs} :
    run [i, j] s = some (u, os) ↔ ∃ t, exec i s = .next t ∧ exec j t = .next u ∧ os = [t.out, u.out] := by
  constructor
  · intro h
    obtain ⟨t, os', hi, hrun, rfl⟩ := run_cons_inv h
    obtain ⟨v, os'', hj, hnil, rfl⟩ := run_cons_inv hrun
    cases hnil
    exact ⟨t, hi, hj, rfl⟩
  · rintro ⟨t, hi, hj, rfl⟩
    exact run_cons hi (run_single hj)

section TwoOrders

variable {i j : Instr} {s t u : State} {os ps : List Outputs}
  (hi : agentOf i = some .rxp ∨ agentOf i = some .cons)
  (hj : agentOf j = some .txa ∨ (agentOf j = some .host ∧ j ≠ .reset))

include hi hj

/-- Receive first, then transmit: the other order completes too, in the same registers. -/
theorem run_transmit_first (h : run [i, j] s = some (t, os)) :
    ∃ u ps, run [j, i] s = some (u, ps) ∧ sameRx t u ∧ sameTx t u ∧ sameRest t u := by
  obtain ⟨s₁, hexi, hexj, -⟩ := run_pair_iff.mp h
  obtain ⟨s₁', hexi', htx, hrest⟩ := exec_receiveSide hi s
  cases hexi.symm.trans hexi'
  obtain ⟨hrx₁, hrest₁⟩ := exec_transmitSide hj hexj
  obtain ⟨s₂, hexj₂, hsame⟩ := exec_transmitSide_congr hj htx.symm hexj
  obtain ⟨hrx₂, hrest₂⟩ := exec_transmitSide hj hexj₂
  obtain ⟨u, hexi₂, htx₂, hrest₃⟩ := exec_receiveSide hi s₂
  have hrx := exec_receiveSide_congr hi hrx₂ hrest₂.2.1 hexi hexi₂
  exact ⟨u, _, run_pair_iff.mpr ⟨s₂, hexj₂, hexi₂, rfl⟩, hrx₁.symm.trans hrx, hsame.trans htx₂,
    hrest₁.symm.trans (hrest.symm.trans (hrest₂.trans hrest₃))⟩

/-- Transmit first, then receive: the other order completes too. -/
theorem run_receive_first (h : run [j, i] s = some (u, ps)) : ∃ t os, run [i, j] s = some (t, os) := by
  obtain ⟨s₂, hexj, -, -⟩ := run_pair_iff.mp h
  obtain ⟨s₁, hexi, htx, -⟩ := exec_receiveSide hi s
  obtain ⟨t, hexj₁, -⟩ := exec_transmitSide_congr hj htx hexj
  exact ⟨t, _, run_pair_iff.mpr ⟨s₁, hexi, hexj₁, rfl⟩⟩

end TwoOrders

/-- Settles O60: either order completes when the other does, and then in the same registers. -/
theorem receiveAndTransmitCommute : Obligations.ReceiveAndTransmitCommute := by
  intro i j s hi hj
  constructor
  · constructor
    · intro hnone
      refine Option.eq_none_iff_forall_not_mem.mpr fun ⟨u, ps⟩ h => ?_
      obtain ⟨t, os, ht⟩ := run_receive_first hi hj h
      cases hnone.symm.trans ht
    · intro hnone
      refine Option.eq_none_iff_forall_not_mem.mpr fun ⟨t, os⟩ h => ?_
      obtain ⟨u, ps, hu, -⟩ := run_transmit_first hi hj h
      cases hnone.symm.trans hu
  · intro t u os ps ht hu
    obtain ⟨u', ps', hu', hsame⟩ := run_transmit_first hi hj ht
    cases hu.symm.trans hu'
    exact hsame

/-! ### The overflow counter -/

/-- One step's count (R25, R114): a dropped token is counted, saturating, and nothing else is. -/
def DropCounted (s t : State) : Prop :=
  t.ovfCount = (if t.out.overflow.isSome then min (s.ovfCount + 1) s.params.ovfMax else s.ovfCount) ∧ t.params = s.params

theorem Outputs.quiet_overflow {o : Outputs} (h : o.quiet = true) : o.overflow = none := by
  simp_all [Outputs.quiet]

theorem dropCounted_of_no_overflow {s t : State} (hout : t.out.overflow = none) (hovf : t.ovfCount = s.ovfCount)
    (hparams : t.params = s.params) : DropCounted s t := by
  rw [DropCounted, hout]
  exact ⟨hovf, hparams⟩

theorem dropCounted_emitted (s : State) (t : Token) (n : RxState) : DropCounted s (emitted s t n) := by
  unfold emitted
  split
  · exact dropCounted_of_no_overflow rfl rfl rfl
  · exact ⟨rfl, rfl⟩

theorem dropCounted_rxStep (c : Category) (info : PulseInfo) (s : State) : DropCounted s (rxStep c info s) := by
  obtain ⟨n, p, -, -, h⟩ | ⟨n, t, -, -, h⟩ | ⟨-, h⟩ := rxStep_cases c info s
  · rw [h]
    exact dropCounted_of_no_overflow rfl rfl rfl
  · rw [h]
    exact dropCounted_emitted s t n
  · rw [h]
    exact dropCounted_of_no_overflow rfl rfl rfl

theorem dropCounted_txAdvance {s t : State} (h : txAdvance s = .next t) : DropCounted s t := by
  obtain ⟨g, rest, -, -, rfl⟩ | ⟨level, -, -, rfl⟩ := txAdvance_next h
  · exact dropCounted_of_no_overflow rfl rfl rfl
  · exact dropCounted_of_no_overflow rfl rfl rfl

/-- The step lemma of R135(d): only `RESET` sets the counter back. -/
theorem dropCounted_exec {i : Instr} {s t : State} (hi : i ≠ .reset) (h : exec i s = .next t) : DropCounted s t := by
  obtain ⟨-, -, -, -, o, he, hq⟩ | ⟨-, c, info, he⟩ | ⟨-, e, he⟩ | ⟨-, he⟩ | ⟨-, -, he | ⟨c, n, -, he⟩⟩ | ⟨-, he⟩ | ⟨hreset, -⟩ |
    ⟨-, p, o, he, hq, -⟩ := exec_cases i s
  · -- only an output
    cases he.symm.trans h
    exact dropCounted_of_no_overflow (Outputs.quiet_overflow hq) rfl rfl
  · -- a receive step
    cases he.symm.trans h
    exact dropCounted_rxStep c info s
  · -- the end of an emitting step
    cases he.symm.trans h
    exact dropCounted_emitted s _ _
  · -- `POP`
    cases he.symm.trans h
    exact dropCounted_of_no_overflow rfl rfl rfl
  · -- a `TRANSMIT` refused
    cases he.symm.trans h
    exact dropCounted_of_no_overflow rfl rfl rfl
  · -- a `TRANSMIT` accepted
    cases he.symm.trans h
    exact dropCounted_of_no_overflow rfl rfl rfl
  · -- a `TXSTEP`
    exact dropCounted_txAdvance (he.symm.trans h)
  · -- `RESET`
    exact absurd hreset hi
  · -- a step of the parser
    cases he.symm.trans h
    exact dropCounted_of_no_overflow (Outputs.quiet_overflow hq) rfl rfl

/-- Settles O28, by induction over the run: a step adds the token it dropped, if any, and saturation is kept. -/
theorem overflowCounterCounts : Obligations.OverflowCounterCounts := by
  intro is s t os hreset hwidth hrun
  refine run_induct
    (P := fun s os u => s.ovfCount ≤ s.params.ovfMax → u.ovfCount = min (s.ovfCount + drops os) s.params.ovfMax)
    (· ≠ .reset) ?_ ?_ (fun i hi hi' => hreset (hi' ▸ hi)) hrun hwidth
  · intro s hwidth
    exact (Nat.min_eq_left hwidth).symm
  · intro i s t os u hi hexec ih hwidth
    obtain ⟨hcount, hparams⟩ := dropCounted_exec hi hexec
    rw [hparams] at ih
    rw [drops_cons]
    cases hdrop : t.out.overflow.isSome with
    | true =>
      simp only [hdrop, if_true] at hcount
      have := ih (by omega)
      simp only [Bool.toNat_true]
      omega
    | false =>
      simp only [hdrop, Bool.false_eq_true, if_false] at hcount
      have := ih (by omega)
      simp only [Bool.toNat_false]
      omega

end Sys2Proof.Machine

/-! PROOF. The decoder and the encoder (30_encoding.md): each kind of call decodes to its row, every well-formed row decodes from its own
call, and the keys and bytes that stand for nothing are rejected. -/

namespace Sys2Proof

open Machine

/-! ### Magnitudes -/

theorem ofNat_toNat_self {w : Nat} (low : BitVec w) : BitVec.ofNat w low.toNat = low := by
  rw [BitVec.ofNat_toNat, BitVec.setWidth_eq]

/-- A bit above the operand's width does not reach the operand: what tells the magnitude rows apart (R72(a)). -/
theorem ofNat_pow_add {w : Nat} (low : BitVec w) : BitVec.ofNat w (2 ^ w + low.toNat) = low := by
  refine BitVec.eq_of_toNat_eq ?_
  rw [BitVec.toNat_ofNat, Nat.add_mod_left, Nat.mod_eq_of_lt low.isLt]

section Magnitudes

variable (level : Level)

theorem magRow_m1 {low : BitVec 9} (h : low ≠ 0) : magRow level low.toNat = .magM1 level low := by
  have hlow : low.toNat ≠ 0 := fun h0 => h (BitVec.eq_of_toNat_eq h0)
  rw [magRow, if_neg hlow, if_pos low.isLt, ofNat_toNat_self]

theorem magRow_m2Low (low : BitVec 9) : magRow level (512 + low.toNat) = .magM2Low level low := by
  have := low.isLt
  rw [magRow, if_neg (by omega), if_neg (by omega), if_pos (by omega)]
  exact congrArg _ (ofNat_pow_add low)

theorem magRow_m2High (low : BitVec 10) : magRow level (1024 + low.toNat) = .magM2High level low := by
  have := low.isLt
  rw [magRow, if_neg (by omega), if_neg (by omega), if_neg (by omega), if_pos (by omega)]
  exact congrArg _ (ofNat_pow_add low)

theorem magRow_m3 (low : BitVec 11) : magRow level (2048 + low.toNat) = .magM3 level low := by
  have := low.isLt
  rw [magRow, if_neg (by omega), if_neg (by omega), if_neg (by omega), if_neg (by omega), if_pos (by omega)]
  exact congrArg _ (ofNat_pow_add low)

theorem magRow_m4 (low : BitVec 12) : magRow level (4096 + low.toNat) = .magM4 level low := by
  have := low.isLt
  rw [magRow, if_neg (by omega), if_neg (by omega), if_neg (by omega), if_neg (by omega), if_neg (by omega), if_pos (by omega)]
  exact congrArg _ (ofNat_pow_add low)

theorem magRow_m5 (low : BitVec 13) : magRow level (8192 + low.toNat) = .magM5 level low := by
  have := low.isLt
  rw [magRow, if_neg (by omega), if_neg (by omega), if_neg (by omega), if_neg (by omega), if_neg (by omega), if_neg (by omega),
    if_pos (by omega)]
  exact congrArg _ (ofNat_pow_add low)

theorem magRow_invLong {p : Nat} (h : 16384 ≤ p) : magRow level p = .magInvLong level p := by
  rw [magRow, if_neg (by omega), if_neg (by omega), if_neg (by omega), if_neg (by omega), if_neg (by omega), if_neg (by omega),
    if_neg (by omega)]

end Magnitudes

/-! ### Receive keys -/

theorem decode_key (ctx : DecodeCtx) (st : RxState) (c : Category) (p : Pending) :
    decode ctx (.rxstep (keyOf st c p)) = .ok (rxRowOf st c p) := decodeKey_keyOf st c p

/-- In `Unknown` every category but `L5` is `UNKNOWN.OTHER`'s (R110). -/
theorem rxRowOf_unknown {c : Category} (hc : c ≠ .l5) (p : Pending) : rxRowOf .unknown c p = .unknownOther c p := by
  cases c with
  | l5 => exact absurd rfl hc
  | _ => rfl

/-- Outside `Unknown` a pair that R66 does not list is `DEFAULT`'s (R109). -/
theorem rxRowOf_of_not_listed {st : RxState} {c : Category} {p : Pending} (hs : st ≠ .unknown)
    (h : listedPair st c p = false) : rxRowOf st c p = .dflt st c p := by
  revert hs h
  cases st <;> cases c <;> rcases p with _ | (_ | _) <;> simp [listedPair, rxRowOf]

/-- The row of a key carries the key's category. -/
theorem rowCategoryOf_rxRowOf (st : RxState) (c : Category) (p : Pending) : rowCategoryOf (rxRowOf st c p) = some c := by
  cases st <;> cases c <;> rcases p with _ | (_ | _) <;> rfl

/-- The row of a key is the first one of the table that matches it (R72), key by key. -/
theorem rxTableIndex_rxRowOf (st : RxState) (c : Category) (p : Pending) :
    rxTableIndex (rxRowOf st c p) = rxTableFirst (keyOf st c p) := by
  cases st <;> cases c <;> rcases p with _ | (_ | _) <;> rfl

/-- Settles O14: a key decodes to the row of its three fields. -/
theorem keyDecodesToTheFirstRow : Obligations.KeyDecodesToTheFirstRow :=
  fun ctx st c p => ⟨rxRowOf st c p, decode_key ctx st c p, rxTableIndex_rxRowOf st c p, rowCategoryOf_rxRowOf st c p⟩

/-- The codes of the twelve states (R20). -/
theorem RxState.ofCode_isSome (n : BitVec 4) : (RxState.ofCode n).isSome = decide (n.toNat < 12) := by
  revert n
  decide

/-- The codes of the eleven categories (R72(b)). -/
theorem Category.ofCode_isSome (n : BitVec 4) : (Category.ofCode n).isSome = decide (n.toNat < 11) := by
  revert n
  decide

theorem RxState.ofCode_of_lt {n : BitVec 4} (h : n.toNat < 12) : ∃ st, RxState.ofCode n = some st :=
  Option.isSome_iff_exists.mp ((RxState.ofCode_isSome n).trans (decide_eq_true h))

theorem RxState.ofCode_of_ge {n : BitVec 4} (h : 12 ≤ n.toNat) : RxState.ofCode n = none :=
  Option.isNone_iff_eq_none.mp (by rw [← Option.not_isSome, RxState.ofCode_isSome, decide_eq_false (Nat.not_lt.mpr h)]; rfl)

theorem Category.ofCode_of_lt {n : BitVec 4} (h : n.toNat < 11) : ∃ c, Category.ofCode n = some c :=
  Option.isSome_iff_exists.mp ((Category.ofCode_isSome n).trans (decide_eq_true h))

theorem Category.ofCode_of_ge {n : BitVec 4} (h : 11 ≤ n.toNat) : Category.ofCode n = none :=
  Option.isNone_iff_eq_none.mp (by rw [← Option.not_isSome, Category.ofCode_isSome, decide_eq_false (Nat.not_lt.mpr h)]; rfl)

/-- Settles O53: the fields are tested in the order state, category, pending, and the first that holds no code names the refusal. -/
theorem reservedKeysRejected : Obligations.ReservedKeysRejected := by
  intro ctx st c pend
  refine ⟨fun hst => ?_, fun hst hc => ?_, fun hst hc hpend => ?_⟩
  · rw [decode, decodeKey, key_state, RxState.ofCode_of_ge hst]
  · obtain ⟨st', hst'⟩ := RxState.ofCode_of_lt hst
    rw [decode, decodeKey, key_state, hst', key_category, Category.ofCode_of_ge hc]
  · obtain ⟨st', hst'⟩ := RxState.ofCode_of_lt hst
    obtain ⟨c', hc'⟩ := Category.ofCode_of_lt hc
    rw [decode, decodeKey, key_state, hst', key_category, hc', key_pending, hpend]
    rfl

/-! ### Pulses, tokens, commands -/

/-- A duration that its port carries is read back from the port's bits (R56). -/
theorem decodePulse_of_fits {w : Nat} {d : Int} (hw : 0 < w) (h : fitsSigned w d = true) :
    decodePulse w (BitVec.ofInt w d).toNat = .ok (.pulse d) := by
  obtain ⟨lower, upper⟩ := Bool.and_eq_true_iff.mp h
  rw [decodePulse, if_pos (BitVec.isLt _), ofNat_toNat_self,
    BitVec.toInt_ofInt_eq_self hw (of_decide_eq_true lower) (of_decide_eq_true upper)]

theorem Token.ofByte_of_other {b : Byte} (hA : b ≠ 0x41) (hB : b ≠ 0x42) (h0 : b ≠ 0x30) (h1 : b ≠ 0x31) :
    Token.ofByte b = none := by
  unfold Token.ofByte
  split
  · rename_i h
    exact absurd (BitVec.eq_of_toNat_eq h) hA
  · rename_i h
    exact absurd (BitVec.eq_of_toNat_eq h) hB
  · rename_i h
    exact absurd (BitVec.eq_of_toNat_eq h) h0
  · rename_i h
    exact absurd (BitVec.eq_of_toNat_eq h) h1
  · rfl

/-- Settles O26: the four bytes one by one, and any other. -/
theorem tokenBytes : Obligations.TokenBytes := by
  intro ctx s
  refine ⟨⟨rfl, rfl⟩, ⟨rfl, rfl⟩, ⟨rfl, rfl⟩, ⟨rfl, rfl⟩, fun b hA hB h0 h1 => ?_⟩
  rw [decode, decodeToken, Token.ofByte_of_other hA hB h0 h1]

section Transmit

variable {ctx : DecodeCtx} {v : BitVec 4} {n : Nat} (hn : n < 2 ^ ctx.params.repeatW)

include hn

theorem decodeTransmit_busy (hb : ctx.txBusy = true) (v : BitVec 4) (f : CmdFields) :
    decodeTransmit ctx (packCmd v f) n = .ok (.transmitBusy v f n) := by
  rw [decodeTransmit, if_neg (Nat.not_le.mpr hn), if_pos hb, cmdVersion_packCmd, cmdFields_packCmd]

/-- Idle, the version code alone decides (R72(d)). -/
theorem decodeTransmit_idle (hb : ctx.txBusy = false) (f : CmdFields) :
    (Version.ofCode v = some .legacy12 → decodeTransmit ctx (packCmd v f) n = .ok (.transmitLegacy12 f n)) ∧
    (Version.ofCode v = some .modern32 → decodeTransmit ctx (packCmd v f) n = .ok (.transmitModern32 f n)) ∧
    (Version.ofCode v = none → decodeTransmit ctx (packCmd v f) n = .ok (.transmitBadversion v f n)) := by
  rw [decodeTransmit, if_neg (Nat.not_le.mpr hn), hb, if_neg Bool.false_ne_true, cmdVersion_packCmd, cmdFields_packCmd]
  refine ⟨fun hv => ?_, fun hv => ?_, fun hv => ?_⟩
  · rw [hv]
  · rw [hv]
  · rw [hv]

end Transmit

theorem decodePrint_packCmd (c : Command) : decodePrint (packCmd c.version.code c.fields) = .ok (.line (.print c)) := by
  rw [decodePrint, cmdVersion_packCmd, cmdFields_packCmd, Version.ofCode_code]

/-! ### The statements -/

/-- Settles O52, row by row: the call of a row decodes by the lemma of its format, and well-formedness excludes the operands that another
row takes. -/
theorem decodeInvertsEncode : Obligations.DecodeInvertsEncode := by
  intro ctx i hparams hwf hsel
  cases i with
  | magZero => rfl
  | magM1 level low => exact congrArg Except.ok (magRow_m1 level (bne_iff_ne.mp hwf))
  | magM2Low level low => exact congrArg Except.ok (magRow_m2Low level low)
  | magM2High level low => exact congrArg Except.ok (magRow_m2High level low)
  | magM3 level low => exact congrArg Except.ok (magRow_m3 level low)
  | magM4 level low => exact congrArg Except.ok (magRow_m4 level low)
  | magM5 level low => exact congrArg Except.ok (magRow_m5 level low)
  | magInvLong level p => exact congrArg Except.ok (magRow_invLong level (of_decide_eq_true hwf))
  | unknownL5 _ | synca1H1 _ | synca2L3 _ | synca2L2 _ | synca3H1 _ | bita0L2 _ | bita0L1 _ | bita1H1 _ | bita2L1P1 | bita2L2P0
  | bita3H1 _ | bitb0H1 _ | bitb1L2 _ | bitb2H2 _ | bitb2H1 _ | bitb3L1P1 | bitb3L2P0 => exact decode_key ctx _ _ _
  | unknownOther c p => rw [encode, decode_key, rxRowOf_unknown (bne_iff_ne.mp hwf)]
  | dflt st c p =>
    obtain ⟨hst, hlisted⟩ := Bool.and_eq_true_iff.mp hwf
    rw [encode, decode_key, rxRowOf_of_not_listed (bne_iff_ne.mp hst) ((Bool.not_eq_true' _).mp hlisted)]
  | pulse d =>
    have hw : 0 < ctx.params.durW := of_decide_eq_true (Bool.and_eq_true_iff.mp hparams).2
    exact decodePulse_of_fits hw hwf
  | pulsePushOrDrop e => simp [encode, decode]
  | tokenSynca | tokenSyncb | tokenBit0 | tokenBit1 | pop | len | readOvf | txSync12 | txBit12One | txBit12Zero | txSync32 | txBit32One
  | txBit32Zero | txTerm12 | txTerm32 | reset => rfl
  | transmitLegacy12 f n =>
    exact (decodeTransmit_idle (of_decide_eq_true hwf) ((Bool.not_eq_true' _).mp hsel) f).1 rfl
  | transmitModern32 f n =>
    exact (decodeTransmit_idle (of_decide_eq_true hwf) ((Bool.not_eq_true' _).mp hsel) f).2.1 rfl
  | transmitBadversion v f n =>
    obtain ⟨hcode, hn⟩ := Bool.and_eq_true_iff.mp hwf
    obtain ⟨h1, h2⟩ := Bool.and_eq_true_iff.mp hcode
    exact (decodeTransmit_idle (of_decide_eq_true hn) ((Bool.not_eq_true' _).mp hsel) f).2.2
      (Version.ofCode_none (bne_iff_ne.mp h1) (bne_iff_ne.mp h2))
  | transmitBusy v f n => exact decodeTransmit_busy (of_decide_eq_true hwf) hsel v f
  | frame12 device state => exact decodeFrame12_word device state
  | frame32 f => exact decodeFrame32_word f
  | txstep =>
    have hmarker : ctx.onlyFinal = false := (Bool.not_eq_true' _).mp hsel
    simp [encode, decode, hmarker]
  | txstepFinal =>
    have hmarker : ctx.onlyFinal = true := hsel
    simp [encode, decode, hmarker]
  | parseToken t => simp [encode, decode]
  | line op =>
    cases op with
    | parse chars => rfl
    | print c => exact decodePrint_packCmd c

/-- Settles O51: each word is read field by field; the fields and the row they select compute. -/
theorem wordsDecodeToTheirRows : Obligations.WordsDecodeToTheirRows :=
  ⟨rfl, rfl, rfl, rfl, rfl, rfl, rfl, rfl, rfl, rfl⟩

end Sys2Proof

/-! PROOF. The receive step as a whole (41_rx_step.md, sections 1, 6 and 7): its signals, what it leaves unchanged, its rows, and the two
short runs that follow from them: the way back to `SyncA1`, and a full buffer. -/

namespace Sys2Proof.Machine

/-! ### One step -/

/-- Settles O12: the row is the end of an emitting step, for the six results alike. -/
theorem pushOrDropRow : Obligations.PushOrDropRow := fun s b =>
  ⟨execPulsePushOrDrop_eq .syncB s, execPulsePushOrDrop_eq .syncA s, execPulsePushOrDrop_eq (.bitA b) s,
    execPulsePushOrDrop_eq (.bitB b) s⟩

/-- Settles O13: row and pulse are one receive step, which takes nothing from the duration but what `InvalidPulse` records. -/
theorem rowIsThePulseOfItsCategory : Obligations.RowIsThePulseOfItsCategory :=
  fun _ s d hrow => ⟨_, _, exec_receiveRow hrow s, exec_pulse d s, rxStep_info (classify d) (.duration d) s⟩

section OneStep

variable (c : Category) (info : PulseInfo) (s : State)

/-- R135(e): the buffer keeps its tokens and gains at most the pushed one. -/
theorem rxStep_fifo : (rxStep c info s).fifo = s.fifo ++ (rxStep c info s).out.pushed.toList := by
  obtain ⟨n, p, -, -, h⟩ | ⟨n, t, -, -, h⟩ | ⟨-, h⟩ := rxStep_cases c info s
  · rw [h]
    exact (List.append_nil s.fifo).symm
  · rw [h, emitted]
    split
    · rfl
    · exact (List.append_nil s.fifo).symm
  · rw [h]
    exact (List.append_nil s.fifo).symm

/-- R114: a token is pushed only into a buffer with room. -/
theorem rxStep_room (hpush : (rxStep c info s).out.pushed ≠ none) : s.fifo.length < s.params.tokenCap := by
  obtain ⟨n, p, -, -, h⟩ | ⟨n, t, -, -, h⟩ | ⟨-, h⟩ := rxStep_cases c info s
  · rw [h] at hpush
    exact absurd rfl hpush
  · by_contra full
    rw [h, emitted, if_neg full] at hpush
    exact absurd rfl hpush
  · rw [h] at hpush
    exact absurd rfl hpush

/-- A step that drops nothing leaves the counter alone (R115). -/
theorem rxStep_ovfCount (hdrop : (rxStep c info s).out.overflow = none) : (rxStep c info s).ovfCount = s.ovfCount := by
  obtain ⟨hcount, -⟩ := dropCounted_rxStep c info s
  rw [hdrop] at hcount
  exact hcount

end OneStep

/-- Settles O16: each part is a law of the receive step. -/
theorem pulseFrame : Obligations.PulseFrame := by
  intro s d
  obtain ⟨htx, hrest⟩ := rxStep_keeps (classify d) (.duration d) s
  exact ⟨_, exec_pulse d s, htx, hrest, rxStep_fifo _ _ s, rxStep_room _ _ s, rxStep_ovfCount _ _ s⟩

/-- A transition that R66 lists leads outside `Unknown` by a valid category; one that emits also starts outside `Unknown`. -/
theorem rxNext_go_target {st n : RxState} {c : Category} {p q : Pending} (hl : listedPair st c p = true)
    (h : rxNext st c p = .go n q) : n ≠ .unknown ∧ c ≠ .inv := by
  have := rxNext_of_listed hl
  rwa [h] at this

theorem rxNext_emit_ends {st n : RxState} {c : Category} {p : Pending} {t : Token} (h : rxNext st c p = .emit n t) :
    st ≠ .unknown ∧ c ≠ .inv ∧ n ≠ .unknown := by
  obtain ⟨hst, hc, hn, -⟩ := rxNext_emits (t := t) (by rw [h]; rfl)
  rw [h] at hn
  exact ⟨hst, hc, hn⟩

/-- Settles O15, over everything a receive step can do: a listed move signals nothing, an emission pushes or overflows, and only a
mismatch can be an invalid pulse or a `Desync`. -/
theorem pulseSignals : Obligations.PulseSignals := by
  intro s d
  refine ⟨_, exec_pulse d s, ?_⟩
  obtain ⟨n, p, hnext, hl, h⟩ | ⟨n, t, hnext, -, h⟩ | ⟨hl, h⟩ := rxStep_cases (classify d) (.duration d) s
  · obtain ⟨hn, hc⟩ := rxNext_go_target hl hnext
    rw [h]
    simp [moved, Outputs.signals, hn, hc]
  · obtain ⟨hs, hc, hn⟩ := rxNext_emit_ends hnext
    rw [h, emitted]
    split
    · simp [Outputs.signals, hn, hc]
    · simp [Outputs.signals, hs, hc]
  · rw [h]
    by_cases hs : s.rxState = .unknown
    · simp [Outputs.signals, invalidEvent, hs]
    · simp [Outputs.signals, invalidEvent, hs]

/-! ### Short runs -/

/-- R91: `L5` takes `Unknown` to `SyncA1`. -/
theorem exec_pulse_unknown_l5 {s : State} {d : Int} (hs : s.rxState = .unknown) (hd : classify d = .l5) :
    exec (.pulse d) s = .next (moved s .syncA1 none) :=
  exec_pulse_go (by rw [hs, hd]; rfl) (by rw [hs, hd]; rfl)

/-- R66 lists no pair of `L5` outside `Unknown`. -/
theorem listedPair_l5 {st : RxState} (hs : st ≠ .unknown) (p : Pending) : listedPair st .l5 p = false := by
  cases st with
  | unknown => exact absurd rfl hs
  | _ => rfl

/-- R109: `L5` takes any other state to `Unknown`, with `frame_end`. -/
theorem exec_pulse_desync_l5 {s : State} {d : Int} (hs : s.rxState ≠ .unknown) (hd : classify d = .l5) :
    exec (.pulse d) s =
      .next { s with rxState := .unknown, pending := none, out := { frameEnd := true, desync := some (s.rxState, .l5) } } := by
  rw [exec_pulse, hd, rxStep_desync _ hs (listedPair_l5 hs s.pending)]
  rfl

/-- Settles O17: from `Unknown` one step; from elsewhere one step to `Unknown`, then that step. -/
theorem twoL5ReachSyncA1 : Obligations.TwoL5ReachSyncA1 := by
  intro s d e hd he
  refine ⟨fun hs => ?_, fun hs => ?_⟩
  · exact ⟨_, _, run_single (exec_pulse_unknown_l5 hs hd), rfl⟩
  · exact ⟨_, _, run_cons (exec_pulse_desync_l5 hs hd) (run_single (exec_pulse_unknown_l5 rfl he)), rfl, rfl⟩

/-- A pulse that finds the buffer full pushes nothing and leaves the buffer as it is. -/
theorem exec_pulse_full {s : State} (hfull : s.fifo.length = s.params.tokenCap) (d : Int) :
    ∃ t, exec (.pulse d) s = .next t ∧ t.out.pushed = none ∧ t.fifo = s.fifo ∧ t.params = s.params := by
  have hpush : (rxStep (classify d) (.duration d) s).out.pushed = none := by
    by_contra h
    have := rxStep_room _ _ s h
    omega
  have hfifo := rxStep_fifo (classify d) (.duration d) s
  rw [hpush] at hfifo
  exact ⟨_, exec_pulse d s, hpush, hfifo.trans (List.append_nil s.fifo), (rxStep_keeps _ _ s).2.2.1.symm⟩

/-- Settles O23, by induction over the pulses: each finds the buffer full and leaves it so. -/
theorem fullBufferKeepsItsContent : Obligations.FullBufferKeepsItsContent := by
  intro ds
  induction ds with
  | nil => exact fun s _ => ⟨s, [], rfl, rfl, rfl⟩
  | cons d ds ih =>
    intro s hfull
    obtain ⟨t, hexec, hpush, hfifo, hparams⟩ := exec_pulse_full hfull d
    obtain ⟨u, os, hrun, hfifo', hpushes⟩ := ih t (by rw [hfifo, hparams, hfull])
    refine ⟨u, _, run_cons hexec hrun, hfifo'.trans hfifo, ?_⟩
    rw [pushes_cons, hpush, hpushes]
    rfl

end Sys2Proof.Machine

/-! PROOF. Frames received (41_rx_step.md, sections 5 and 7; 70_reset_and_hazards.md, section 3): what the pulses of the symbols do to the
receiver in the states where a frame can meet it, and from these what becomes of a repetition and of a whole waveform. -/

namespace Sys2Proof.Machine

theorem pulsesOf_append (xs ys : List Segment) : pulsesOf (xs ++ ys) = pulsesOf xs ++ pulsesOf ys := List.map_append

theorem length_flatten_replicate {α : Type} (n : Nat) (xs : List α) :
    (List.replicate n xs).flatten.length = n * xs.length := by
  simp

/-! ### Runs that may lose a frame -/

/-- A run that pushes exactly `ts`, signals `frame_end` `ends` times, drops nothing and ends in the state `next`. -/
structure Receives (is : List Instr) (s : State) (ts : List Token) (ends : Nat) (next : RxState) (t : State) (os : List Outputs) :
    Prop where
  runs : run is s = some (t, os)
  pushed : pushes os = ts
  frameEnds : frameEnds os = ends
  dropped : drops os = 0
  fifo : t.fifo = s.fifo ++ ts
  params : t.params = s.params
  rxState : t.rxState = next
  parser : t.parser = s.parser

theorem Pushes.receives {is : List Instr} {s t : State} {ts : List Token} {n : RxState} {p : Pending} {os : List Outputs}
    (h : Pushes is s ts n p t os) : Receives is s ts 0 n t os :=
  ⟨h.runs, h.pushed, h.ends, h.dropped, h.fifo, h.params, h.rxState, h.parser⟩

theorem Receives.nil (s : State) : Receives [] s [] 0 s.rxState s [] := (Pushes.nil s).receives

theorem Receives.append {is js : List Instr} {s t u : State} {xs ys : List Token} {m k : Nat} {n n' : RxState}
    {os ps : List Outputs} (h : Receives is s xs m n t os) (g : Receives js t ys k n' u ps) :
    Receives (is ++ js) s (xs ++ ys) (m + k) n' u (os ++ ps) :=
  ⟨run_append h.runs g.runs, by rw [pushes_append, h.pushed, g.pushed], by rw [frameEnds_append, h.frameEnds, g.frameEnds],
    by rw [drops_append, h.dropped, g.dropped], by rw [g.fifo, h.fifo, List.append_assoc], by rw [g.params, h.params], g.rxState,
    by rw [g.parser, h.parser]⟩

/-- The room that is left after a run. -/
theorem Receives.room {is : List Instr} {s t : State} {ts : List Token} {m k : Nat} {n : RxState} {os : List Outputs}
    (h : Receives is s ts m n t os) (room : s.fifo.length + (ts.length + k) ≤ s.params.tokenCap) :
    t.fifo.length + k ≤ t.params.tokenCap := by
  rw [h.fifo, h.params, List.length_append]
  omega

/-! ### One pulse -/

/-- `Unknown` ignores a pulse that is not `L5` (R110). -/
theorem receives_ignored {s : State} {d : Int} (hs : s.rxState = .unknown) (hd : classify d ≠ .l5) :
    ∃ t os, Receives [.pulse d] s [] 0 .unknown t os := by
  have he := (exec_pulse d s).trans (congrArg _ (rxStep_ignored (.duration d) hs hd))
  exact ⟨_, _, run_single he, rfl, rfl, rfl, (List.append_nil s.fifo).symm, rfl, rfl, rfl⟩

/-- Elsewhere a pulse that R66 does not list loses what was in progress (R109). -/
theorem receives_desync {s : State} {d : Int} (hs : s.rxState ≠ .unknown)
    (hd : listedPair s.rxState (classify d) s.pending = false) : ∃ t os, Receives [.pulse d] s [] 1 .unknown t os := by
  have he := (exec_pulse d s).trans (congrArg _ (rxStep_desync (.duration d) hs hd))
  exact ⟨_, _, run_single he, rfl, rfl, rfl, (List.append_nil s.fifo).symm, rfl, rfl, rfl⟩

/-- A listed pulse that emits nothing. -/
theorem receives_go {s : State} {d : Int} {n : RxState} {p : Pending} (hl : listedPair s.rxState (classify d) s.pending = true)
    (h : rxNext s.rxState (classify d) s.pending = .go n p) : ∃ t os, Receives [.pulse d] s [] 0 n t os :=
  ⟨_, _, run_single (exec_pulse_go hl h), rfl, rfl, rfl, (List.append_nil s.fifo).symm, rfl, rfl, rfl⟩

/-- `Unknown` ignores any pulses without `L5`. -/
theorem receives_all_ignored (segs : List Segment) {s : State} (hs : s.rxState = .unknown)
    (hsegs : ∀ g ∈ segs, classify (segPulse g) ≠ .l5) : ∃ t os, Receives (pulsesOf segs) s [] 0 .unknown t os := by
  induction segs generalizing s with
  | nil => exact ⟨s, [], hs ▸ Receives.nil s⟩
  | cons g segs ih =>
    obtain ⟨t, os, h⟩ := receives_ignored hs (hsegs g (by simp))
    obtain ⟨u, ps, h'⟩ := ih h.rxState fun g' hg' => hsegs g' (by simp [hg'])
    exact ⟨u, _, h.append h'⟩

/-! ### The symbols -/

/-- No bit symbol holds an `L5`: only a sync symbol can start a frame. -/
theorem bitSymbol_ne_l5 (v : Version) (b : Bool) : ∀ g ∈ bitSymbol v b, classify (segPulse g) ≠ .l5 := by
  cases v <;> cases b <;> decide

theorem bits_ne_l5 (v : Version) (bits : List Bool) : ∀ g ∈ bits.flatMap (bitSymbol v), classify (segPulse g) ≠ .l5 := by
  intro g hg
  obtain ⟨b, -, hb⟩ := List.mem_flatMap.mp hg
  exact bitSymbol_ne_l5 v b g hb

/-- R112: the symbols of any bits, from the state after a sync or a bit, by induction over the bits. -/
theorem pushes_bits (v : Version) (bits : List Bool) {s : State} (hs : s.rxState = afterFrame v)
    (room : s.fifo.length + bits.length ≤ s.params.tokenCap) :
    ∃ p t os, Pushes (pulsesOf (bits.flatMap (bitSymbol v))) s (bits.map .bit) (afterFrame v) p t os ∧
      (s.pending = none → p = none) := by
  induction bits generalizing s with
  | nil => exact ⟨s.pending, s, [], hs ▸ Pushes.nil s, id⟩
  | cons b bits ih =>
    rw [List.length_cons] at room
    obtain ⟨t, os, h⟩ := pushes_bit v b hs (by omega)
    have room' : t.fifo.length + bits.length ≤ t.params.tokenCap :=
      h.receives.room (by rw [List.length_singleton]; omega)
    obtain ⟨p, u, ps, h', hp⟩ := ih h.rxState room'
    rw [List.flatMap_cons, pulsesOf_append]
    exact ⟨p, u, _, h.append h', fun _ => hp h.pending⟩

/-- The Modern32 sync symbol from `Unknown` (R91 to R93, R95). -/
theorem pushes_sync32 {s : State} (hs : s.rxState = .unknown) (room : s.fifo.length < s.params.tokenCap) :
    ∃ t os, Pushes (pulsesOf sync32) s [.syncA] .bitA0 none t os :=
  pushes_four room (n₁ := .syncA1) (p₁ := none) (by rw [hs]; exact ⟨rfl, rfl⟩) (n₂ := .syncA2) (p₂ := none) ⟨rfl, rfl⟩
    (n₃ := .syncA3) (p₃ := none) ⟨rfl, rfl⟩ rfl

/-- The Legacy12 sync symbol from `Unknown`: its `H1` is ignored, its `L5` starts the pattern (R110, R91). -/
theorem receives_sync12_unknown {s : State} (hs : s.rxState = .unknown) :
    ∃ t os, Receives (pulsesOf sync12) s [] 0 .syncA1 t os := by
  obtain ⟨t, os, h⟩ := receives_ignored (d := 350) hs (by decide)
  obtain ⟨u, ps, h'⟩ := receives_go (s := t) (d := -10850) (n := .syncA1) (p := none) (by rw [h.rxState]; rfl)
    (by rw [h.rxState]; rfl)
  exact ⟨u, _, h.append h'⟩

/-- The Legacy12 sync symbol after a Modern32 frame: its `H1` ends that frame, its `L5` then starts the pattern (R109, R91, R120). -/
theorem receives_sync12_bitA0 {s : State} (hs : s.rxState = .bitA0) :
    ∃ t os, Receives (pulsesOf sync12) s [] 1 .syncA1 t os := by
  obtain ⟨t, os, h⟩ := receives_desync (s := s) (d := 350) (by rw [hs]; decide) (by rw [hs]; rfl)
  obtain ⟨u, ps, h'⟩ := receives_go (s := t) (d := -10850) (n := .syncA1) (p := none) (by rw [h.rxState]; rfl)
    (by rw [h.rxState]; rfl)
  exact ⟨u, _, h.append h'⟩

/-- The Legacy12 sync symbol after a Legacy12 frame: its `H1` is taken for a bit's, so its `L5` is lost (R102, R109, R119). -/
theorem receives_sync12_bitB0 {s : State} (hs : s.rxState = .bitB0) :
    ∃ t os, Receives (pulsesOf sync12) s [] 1 .unknown t os := by
  obtain ⟨t, os, h⟩ := receives_go (s := s) (d := 350) (n := .bitB1) (p := none) (by rw [hs]; rfl) (by rw [hs]; rfl)
  obtain ⟨u, ps, h'⟩ := receives_desync (s := t) (d := -10850) (by rw [h.rxState]; decide) (by rw [h.rxState]; rfl)
  exact ⟨u, _, h.append h'⟩

/-- Two pulses of which the second emits. -/
theorem pushes_two {s : State} {a b : Int} {n₁ n₂ : RxState} {p₁ : Pending} {t : Token}
    (room : s.fifo.length < s.params.tokenCap)
    (h₁ : listedPair s.rxState (classify a) s.pending = true ∧ rxNext s.rxState (classify a) s.pending = .go n₁ p₁)
    (h₂ : rxNext n₁ (classify b) p₁ = .emit n₂ t) : ∃ u os, Pushes [.pulse a, .pulse b] s [t] n₂ none u os :=
  ⟨_, _, run_cons (exec_pulse_go h₁.1 h₁.2) (run_single (exec_pulse_emit (s := moved s n₁ p₁) room h₂)),
    rfl, rfl, rfl, rfl, rfl, rfl, rfl, rfl⟩

/-- The first bit symbol of a Legacy12 frame ends the sync pattern as well, so two tokens come of it (R92, R94, R104 to R107). -/
theorem pushes_first_bit12 (b : Bool) {s : State} (hs : s.rxState = .syncA1) (room : s.fifo.length + 2 ≤ s.params.tokenCap) :
    ∃ t os, Pushes (pulsesOf (bit12 b)) s [.syncB, .bit b] .bitB0 none t os := by
  obtain ⟨t, os, h⟩ := pushes_two (s := s) (a := 350) (b := -1050) (n₁ := .syncA2) (p₁ := none) (n₂ := .bitB2) (t := .syncB)
    (by omega) (by rw [hs]; exact ⟨rfl, rfl⟩) rfl
  have room' : t.fifo.length < t.params.tokenCap := h.receives.room (k := 1) room
  cases b with
  | true =>
    obtain ⟨u, ps, h'⟩ := pushes_two (s := t) (a := 1050) (b := -350) (n₁ := .bitB3) (p₁ := some true) (n₂ := .bitB0)
      (t := .bit true) room' (by rw [h.rxState]; exact ⟨rfl, rfl⟩) rfl
    exact ⟨u, _, h.append h'⟩
  | false =>
    obtain ⟨u, ps, h'⟩ := pushes_two (s := t) (a := 350) (b := -1050) (n₁ := .bitB3) (p₁ := some false) (n₂ := .bitB0)
      (t := .bit false) room' (by rw [h.rxState]; exact ⟨rfl, rfl⟩) rfl
    exact ⟨u, _, h.append h'⟩

/-! ### A repetition -/

theorem frameBits_ne_nil (c : Command) : frameBits c ≠ [] := by
  refine List.ne_nil_of_length_pos ?_
  rw [frameBits_length]
  split <;> decide

theorem frameBits_legacy12_length (f : CmdFields) : (frameBits { version := .legacy12, fields := f }).length = 12 :=
  frameBits_length _

theorem frameBits_modern32_length (f : CmdFields) : (frameBits { version := .modern32, fields := f }).length = 32 :=
  frameBits_length _

/-- Any bits of Format B after the sync symbol's `L5`: the sync token and the bits. -/
theorem pushes_bits12_of_syncA1 {bits : List Bool} (hbits : bits ≠ []) {s : State} (hs : s.rxState = .syncA1)
    (room : s.fifo.length + (bits.length + 1) ≤ s.params.tokenCap) :
    ∃ t os, Pushes (pulsesOf (bits.flatMap bit12)) s (.syncB :: bits.map .bit) .bitB0 none t os := by
  obtain ⟨b, bits, rfl⟩ := List.exists_cons_of_ne_nil hbits
  rw [List.length_cons] at room
  obtain ⟨t, os, h⟩ := pushes_first_bit12 b hs (by omega)
  have room' : t.fifo.length + bits.length ≤ t.params.tokenCap :=
    h.receives.room (by simp only [List.length_cons, List.length_nil]; omega)
  obtain ⟨p, u, ps, h', hp⟩ := pushes_bits .legacy12 bits h.rxState room'
  cases hp h.pending
  rw [List.flatMap_cons, pulsesOf_append]
  exact ⟨u, _, h.append h'⟩

/-- R118: a repetition met in `Unknown` with room. Either format's frame starts in `Unknown`; nothing that is pending there matters. -/
theorem receives_rep (c : Command) {s : State} (hs : s.rxState = .unknown)
    (room : s.fifo.length + (frameTokens c).length ≤ s.params.tokenCap) :
    ∃ t os, Receives (pulsesOf (rep c)) s (frameTokens c) 0 (afterFrame c.version) t os ∧ t.pending = none := by
  obtain ⟨v, f⟩ := c
  rw [frameTokens, List.length_cons, List.length_map] at room
  rw [rep, pulsesOf_append]
  cases v with
  | legacy12 =>
    obtain ⟨t, os, h⟩ := receives_sync12_unknown hs
    obtain ⟨u, ps, h'⟩ := pushes_bits12_of_syncA1 (frameBits_ne_nil _) h.rxState (h.room (by simpa using room))
    exact ⟨u, _, h.append h'.receives, h'.pending⟩
  | modern32 =>
    obtain ⟨t, os, h⟩ := pushes_sync32 hs (by omega)
    obtain ⟨p, u, ps, h', hp⟩ := pushes_bits .modern32 (frameBits { version := .modern32, fields := f }) h.rxState
      (h.receives.room (by simpa [Nat.add_comm] using room))
    exact ⟨u, _, (h.append h').receives, h'.pending.trans (hp h.pending)⟩

theorem afterFrame_ne_unknown (v : Version) : afterFrame v ≠ .unknown := by cases v <;> decide

/-- R120, R119: a Modern32 repetition met anywhere but in `Unknown` is lost with its `L5`. -/
theorem receives_lost_modern {f : CmdFields} {s : State} (hs : s.rxState ≠ .unknown) :
    ∃ t os, Receives (pulsesOf (rep { version := .modern32, fields := f })) s [] 1 .unknown t os := by
  have hl5 : classify (-10150) = .l5 := by decide
  have hsync : ∀ g ∈ [hi 310, lo 2643, hi 310], classify (segPulse g) ≠ .l5 := by decide
  obtain ⟨t, os, h⟩ := receives_desync (d := -10150) hs (by rw [hl5]; exact listedPair_l5 hs s.pending)
  obtain ⟨u, ps, h'⟩ := receives_all_ignored ([hi 310, lo 2643, hi 310] ++ (frame32Bits f).flatMap (bitSymbol .modern32)) h.rxState
    (fun g hg => (List.mem_append.mp hg).elim (hsync g) (bits_ne_l5 .modern32 _ g))
  exact ⟨u, _, h.append h'⟩

/-- R119: a Legacy12 repetition directly after another is lost. -/
theorem receives_lost_legacy {f : CmdFields} {s : State} (hs : s.rxState = .bitB0) :
    ∃ t os, Receives (pulsesOf (rep { version := .legacy12, fields := f })) s [] 1 .unknown t os := by
  obtain ⟨t, os, h⟩ := receives_sync12_bitB0 hs
  obtain ⟨u, ps, h'⟩ := receives_all_ignored _ h.rxState (bits_ne_l5 .legacy12 (frame12Bits f))
  rw [rep, pulsesOf_append]
  exact ⟨u, _, h.append h'⟩

/-- A repetition of either format directly after a frame of its own format is lost (R119, R241). -/
theorem receives_lost {c : Command} {s : State} (hs : s.rxState = afterFrame c.version) :
    ∃ t os, Receives (pulsesOf (rep c)) s [] 1 .unknown t os := by
  obtain ⟨v, f⟩ := c
  cases v with
  | legacy12 => exact receives_lost_legacy hs
  | modern32 => exact receives_lost_modern (by rw [hs]; exact afterFrame_ne_unknown .modern32)

/-! ### A waveform -/

/-- What `k` repetitions leave the machine in: `Unknown` after a lost one, the state after a frame after a received one. -/
def afterReps (v : Version) (k : Nat) : RxState := if k % 2 = 0 then .unknown else afterFrame v

/-- The tokens of the repetitions that are received of `k` sent back to back. -/
def repsTokens (c : Command) (k : Nat) : List Token := (List.replicate ((k + 1) / 2) (frameTokens c)).flatten

theorem repsTokens_length (c : Command) (k : Nat) : (repsTokens c k).length = (k + 1) / 2 * (frameTokens c).length :=
  length_flatten_replicate _ _

/-- Two repetitions more are one received and one lost. -/
theorem repsTokens_add_two (c : Command) (k : Nat) : repsTokens c (k + 2) = frameTokens c ++ repsTokens c k := by
  have : (k + 2 + 1) / 2 = (k + 1) / 2 + 1 := by omega
  rw [repsTokens, this, List.replicate_succ, List.flatten_cons, repsTokens]

theorem reps_add_two (c : Command) (k : Nat) :
    (List.replicate (k + 2) (rep c)).flatten = rep c ++ (rep c ++ (List.replicate k (rep c)).flatten) := by
  rw [List.replicate_succ, List.replicate_succ, List.flatten_cons, List.flatten_cons]

/-- R241, before the terminator: by induction over the repetitions, two at a time. -/
theorem receives_reps (c : Command) : ∀ (k : Nat) {s : State}, s.rxState = .unknown →
    s.fifo.length + (repsTokens c k).length ≤ s.params.tokenCap →
      ∃ t os, Receives (pulsesOf (List.replicate k (rep c)).flatten) s (repsTokens c k) (k / 2) (afterReps c.version k) t os
  | 0, s, hs, _ =>
    have h : Receives [] s [] 0 .unknown s [] := hs ▸ Receives.nil s
    ⟨s, [], h⟩
  | 1, s, hs, room => by
    have one : repsTokens c 1 = frameTokens c := List.append_nil _
    rw [one] at room ⊢
    obtain ⟨t, os, h, -⟩ := receives_rep c hs room
    rw [show (List.replicate 1 (rep c)).flatten = rep c from List.append_nil _]
    exact ⟨t, os, h⟩
  | k + 2, s, hs, room => by
    rw [repsTokens_add_two, List.length_append] at room
    obtain ⟨t, os, received, -⟩ := receives_rep c hs (by omega)
    obtain ⟨u, ps, lost⟩ := receives_lost (c := c) received.rxState
    have both := received.append lost
    obtain ⟨w, qs, others⟩ := receives_reps c k lost.rxState (both.room (by simpa using room))
    have h := both.append others
    rw [reps_add_two, ← List.append_assoc, pulsesOf_append, pulsesOf_append, repsTokens_add_two]
    have hends : (k + 2) / 2 = 0 + 1 + k / 2 := by omega
    have hafter : afterReps c.version (k + 2) = afterReps c.version k := by rw [afterReps, afterReps, Nat.add_mod_right]
    rw [hends, hafter]
    rw [List.append_nil] at h
    exact ⟨w, _, h⟩

/-- The terminator (R158, R159) starts no frame and ends none. -/
theorem receives_term (v : Version) (k : Nat) {s : State} (hs : s.rxState = afterReps v k) :
    ∃ n t os, Receives (pulsesOf (termSymbol v)) s [] 0 n t os := by
  cases v with
  | modern32 => exact ⟨_, s, [], Receives.nil s⟩
  | legacy12 =>
    rw [afterReps] at hs
    split at hs
    · exact ⟨_, receives_ignored (d := 350) hs (by decide)⟩
    · exact ⟨.bitB1, receives_go (d := 350) (p := none) (by rw [hs]; rfl) (by rw [hs]; rfl)⟩

theorem receives_waveform (c : Command) (k : Nat) {s : State} (hs : s.rxState = .unknown)
    (room : s.fifo.length + (k + 1) / 2 * (frameTokens c).length ≤ s.params.tokenCap) :
    ∃ n t os, Receives (pulsesOf (waveform c k)) s (repsTokens c k) (k / 2) n t os := by
  rw [← repsTokens_length] at room
  obtain ⟨t, os, h⟩ := receives_reps c k hs room
  obtain ⟨n, u, ps, h'⟩ := receives_term c.version k h.rxState
  have := h.append h'
  rw [List.append_nil, Nat.add_zero, ← pulsesOf_append] at this
  exact ⟨n, u, _, this⟩

/-! ### The statements -/

/-- Settles O18, by induction over the bits: each symbol pushes its bit and ends where it began. -/
theorem bitsAssembledWithoutCounting : Obligations.BitsAssembledWithoutCounting := by
  intro v bits s hs room
  obtain ⟨p, t, os, h, -⟩ := pushes_bits v bits hs room
  exact ⟨t, os, h.runs, h.pushed, h.fifo, h.rxState, h.ends, h.dropped⟩

/-- Settles O19: the sync symbol met in `Unknown`, then the frame's bits, by induction over these. -/
theorem cleanFrameReceived : Obligations.CleanFrameReceived := by
  intro c s hs room
  obtain ⟨t, os, h, hpend⟩ := receives_rep c hs room
  exact ⟨t, os, h.runs, h.pushed, h.fifo, h.frameEnds, h.dropped, h.rxState, hpend⟩

/-- Settles O20: the `L5` is spent on leaving the state it meets, and no other pulse of the repetition is one. -/
theorem modernFrameLostOutsideUnknown : Obligations.ModernFrameLostOutsideUnknown := by
  intro f s hs
  obtain ⟨t, os, h⟩ := receives_lost_modern (f := f) hs
  exact ⟨t, os, h.runs, h.pushed, h.fifo.trans (List.append_nil _), h.frameEnds, h.rxState⟩

/-- Settles O21, by induction over the repetitions, two at a time: one is received, and the next is lost in the state it leaves. -/
theorem everySecondRepetitionLost : Obligations.EverySecondRepetitionLost := by
  intro c k s hs room
  obtain ⟨n, t, os, h⟩ := receives_waveform c k hs room
  exact ⟨t, os, h.runs, h.pushed, h.frameEnds, h.dropped⟩

/-- Settles O22: the first pulse of the Legacy12 sync symbol ends the Modern32 frame, so its `L5` meets `Unknown`. -/
theorem modernThenLegacyBothReceived : Obligations.ModernThenLegacyBothReceived := by
  intro f g s hs room
  have hmodern : (frameTokens { version := .modern32, fields := f }).length = 33 := by
    rw [frameTokens, List.length_cons, List.length_map, frameBits_modern32_length]
  obtain ⟨t, os, first, -⟩ := receives_rep { version := .modern32, fields := f } hs (by omega)
  obtain ⟨u, ps, sync⟩ := receives_sync12_bitA0 first.rxState
  have both := first.append sync
  obtain ⟨w, qs, bits⟩ := pushes_bits12_of_syncA1 (frameBits_ne_nil { version := .legacy12, fields := g }) sync.rxState
    (both.room (by rw [List.append_nil, hmodern, frameBits_legacy12_length]; omega))
  have h := both.append bits.receives
  rw [List.append_nil, List.append_assoc, ← pulsesOf_append, ← pulsesOf_append] at h
  exact ⟨w, _, h.runs, h.pushed, h.frameEnds, h.dropped, h.rxState⟩

end Sys2Proof.Machine

/-! PROOF. Frames and the Command Parser (43_transmit.md, section 1; 44_host_parser.md, section 1): which bits a command is serialised as,
which command a complete frame is parsed as, and that the second undoes the first. -/

namespace Sys2Proof.Machine

/-! ### The bits of a frame -/

theorem frame12Bits_getElem? (f : CmdFields) {i : Nat} (hi : i < 8) :
    (frame12Bits f)[i]? = some (f.device.getLsbD (7 - i)) := by
  have hbit : (f.device.extractLsb' 0 8).getLsbD (8 - 1 - i) = f.device.getLsbD (7 - i) := by
    rw [BitVec.getLsbD_extractLsb', Nat.zero_add, decide_eq_true (by omega), Bool.true_and]
  rw [frame12Bits, List.getElem?_append_left (by rwa [msbFirst_length]), msbFirst_getElem? _ hi, hbit]

theorem frame12Bits_drop (f : CmdFields) : (frame12Bits f).drop 8 = [false, true, true, f.state] :=
  List.drop_left' (msbFirst_length _)

theorem frame12Bits_take (f : CmdFields) : (frame12Bits f).take 8 = msbFirst (f.device.extractLsb' 0 8) :=
  List.take_left' (msbFirst_length _)

/-- A bit after the first eight is one of the marker and the state (R61). -/
theorem frame12Bits_getElem?_high (f : CmdFields) (j : Nat) : (frame12Bits f)[8 + j]? = [false, true, true, f.state][j]? := by
  rw [← List.getElem?_drop, frame12Bits_drop]

/-- Settles O33: the row's frame is that of a command with the row's byte in the device's low byte. -/
theorem legacyFrameLayout : Obligations.LegacyFrameLayout := by
  constructor
  · intro s device state
    refine ⟨frame12Bits { device := device.setWidth 24, group := false, channel := 0, state := state }, rfl,
      frameBits_legacy12_length _, fun i hi => ?_, frame12Bits_getElem?_high _ 0, frame12Bits_getElem?_high _ 1,
      frame12Bits_getElem?_high _ 2, frame12Bits_getElem?_high _ 3⟩
    rw [frame12Bits_getElem? _ hi, BitVec.getLsbD_setWidth, decide_eq_true (by omega), Bool.true_and]
  · intro f
    exact ⟨frameBits_legacy12_length f, fun i hi => frame12Bits_getElem? f hi, frame12Bits_drop f⟩

theorem frame32Bits_eq (f : CmdFields) :
    frame32Bits f = msbFirst f.device ++ ([true, false, f.group, f.state] ++ msbFirst f.channel) := List.append_assoc _ _ _

theorem frame32Bits_drop (f : CmdFields) : (frame32Bits f).drop 24 = [true, false, f.group, f.state] ++ msbFirst f.channel := by
  rw [frame32Bits_eq]
  exact List.drop_left' (msbFirst_length _)

theorem frame32Bits_take (f : CmdFields) : (frame32Bits f).take 24 = msbFirst f.device := by
  rw [frame32Bits_eq]
  exact List.take_left' (msbFirst_length _)

/-- A bit after the first twenty-four is one of the marker, the group, the state and the channel (R62). -/
theorem frame32Bits_getElem?_high (f : CmdFields) (j : Nat) :
    (frame32Bits f)[24 + j]? = ([true, false, f.group, f.state] ++ msbFirst f.channel)[j]? := by
  rw [← List.getElem?_drop, frame32Bits_drop]

/-- Settles O34: the row's frame is the command's, and its parts are read off from the left. -/
theorem modernFrameLayout : Obligations.ModernFrameLayout := by
  intro s f
  refine ⟨frame32Bits f, rfl, rfl, frameBits_modern32_length f, fun i hi => ?_,
    frame32Bits_getElem?_high f 0, frame32Bits_getElem?_high f 1, frame32Bits_getElem?_high f 2, frame32Bits_getElem?_high f 3,
    fun j hj => ?_⟩
  · rw [frame32Bits_eq, List.getElem?_append_left (by rwa [msbFirst_length])]
    exact msbFirst_getElem? f.device hi
  · have hsplit : 28 + j = 24 + (4 + j) := by omega
    rw [hsplit, frame32Bits_getElem?_high, List.getElem?_append_right (Nat.le_add_right 4 j)]
    rw [show 4 + j - [true, false, f.group, f.state].length = j from Nat.add_sub_cancel_left 4 j]
    exact msbFirst_getElem? f.channel hj

/-! ### The end of a frame -/

/-- The last bit that its frame waits for ends it: the command of the whole frame, or none and the event (R181, R184, R203). -/
theorem parseBit_of_last {s : State} {mode : ParserMode} (hmode : s.parser.mode = mode) (started : mode ≠ .none)
    (last : s.parser.bits.length + 1 = frameLength mode) (b : Bool) :
    parseBit b s =
      { s with
        parser := {},
        out :=
          { ret := .command (decodeFrame mode (s.parser.bits ++ [b]))
            incompleteFrame := (decodeFrame mode (s.parser.bits ++ [b])).isNone } } := by
  have hlen : (s.parser.bits ++ [b]).length = frameLength mode := by rwa [List.length_append, List.length_singleton]
  cases mode with
  | none => exact absurd rfl started
  | a => rw [parseBit, hmode]; exact if_pos hlen
  | b => rw [parseBit, hmode]; exact if_pos hlen

/-- Bit `i` in time order of a list of bits is bit `length - 1 - i` of the field they make (R185, R186). -/
theorem getElem?_of_field {w : Nat} {bits : List Bool} {i : Nat} (hw : bits.length ≤ w) (hi : i < bits.length) :
    bits[i]? = some ((BitVec.ofNat w (ofBits bits)).getLsbD (bits.length - 1 - i)) := by
  rw [List.getElem?_eq_getElem hi, BitVec.getLsbD_ofNat, ofBits_testBit bits hi, decide_eq_true (by omega), Bool.true_and]

/-- With eleven bits and one more, the marker is bits 8 to 10 and the state the last bit (R61). -/
theorem marker12_iff {bits : List Bool} (hlen : bits.length = 11) (b : Bool) :
    ((bits ++ [b]).drop 8).take 3 = [false, true, true] ↔ (bits ++ [b]).drop 8 = [false, true, true, b] := by
  have hdrop : (bits ++ [b]).drop 8 = bits.drop 8 ++ [b] := List.drop_append_of_le_length (by omega)
  rw [hdrop, List.take_left' (by rw [List.length_drop, hlen])]
  exact (List.append_left_inj (s₁ := bits.drop 8) (s₂ := [false, true, true]) [b]).symm

/-- Two neighbouring bits of a list. -/
theorem take_two_drop_iff {bits : List Bool} {n : Nat} (h : n + 1 < bits.length) (x y : Bool) :
    (bits.drop n).take 2 = [x, y] ↔ bits[n]? = some x ∧ bits[n + 1]? = some y := by
  have hn : n < bits.length := by omega
  have htake : (bits.drop n).take 2 = [bits[n], bits[n + 1]] := by
    rw [List.drop_eq_getElem_cons hn, List.drop_eq_getElem_cons h]
    rfl
  rw [htake, List.getElem?_eq_getElem hn, List.getElem?_eq_getElem h]
  simp

/-- The bit after the others is the last one. -/
theorem getD_concat {bits : List Bool} {n : Nat} (hlen : bits.length = n) (b : Bool) : (bits ++ [b]).getD n false = b := by
  rw [← hlen, List.getD_eq_getElem?_getD, List.getElem?_concat_length]
  rfl

/-- The bits before position `n` of a longer list, as a field of at least `n` bits. -/
theorem getElem?_of_take_field {w n : Nat} {bits : List Bool} {i : Nat} (hw : n ≤ w) (hn : n ≤ bits.length) (hi : i < n) :
    bits[i]? = some ((BitVec.ofNat w (ofBits (bits.take n))).getLsbD (n - 1 - i)) := by
  have hlen : (bits.take n).length = n := List.length_take_of_le hn
  have hfield := getElem?_of_field (w := w) (bits := bits.take n) (i := i) (by omega) (by omega)
  rwa [List.getElem?_take_of_lt hi, hlen] at hfield

theorem getElem?_eq_some_getD {bits : List Bool} {n : Nat} (hn : n < bits.length) : bits[n]? = some (bits.getD n false) := by
  rw [List.getD_eq_getElem?_getD, List.getElem?_eq_getElem hn]
  rfl

/-- Settles O45: the marker decides between the command of the twelve bits and the event. -/
theorem legacyFrameDecoded : Obligations.LegacyFrameDecoded := by
  intro s b hmode hlen
  have hlast : s.parser.bits.length + 1 = frameLength .b := by rw [hlen]; rfl
  rw [exec_parseToken_bit, parseBit_of_last hmode (by decide) hlast, decodeFrame]
  refine ⟨fun hmarker => ?_, fun hmarker => ?_⟩
  · rw [decodeLegacy12, if_pos ((marker12_iff hlen b).mpr hmarker), getD_concat hlen, List.take_append_of_le_length (by omega)]
    refine ⟨BitVec.ofNat 24 (ofBits (s.parser.bits.take 8)), rfl, ?_, fun i hi => ?_⟩
    · have hlt := ofBits_lt (s.parser.bits.take 8)
      rw [List.length_take_of_le (by omega)] at hlt
      rw [BitVec.toNat_ofNat]
      omega
    · exact getElem?_of_take_field (by decide) (by omega) hi
  · rw [decodeLegacy12, if_neg fun h => hmarker ((marker12_iff hlen b).mp h)]
    rfl

/-- Settles O46: the marker decides between the command of the thirty-two bits and the event. -/
theorem modernFrameDecoded : Obligations.ModernFrameDecoded := by
  intro s b hmode hlen
  have hlast : s.parser.bits.length + 1 = frameLength .a := by rw [hlen]; rfl
  have hlen' : (s.parser.bits ++ [b]).length = 32 := by rw [List.length_append, hlen]; rfl
  have hbit : ∀ i, i < 31 → s.parser.bits[i]? = (s.parser.bits ++ [b])[i]? := fun i hi =>
    (List.getElem?_append_left (by omega)).symm
  rw [exec_parseToken_bit, parseBit_of_last hmode (by decide) hlast, hbit 24 (by omega), hbit 25 (by omega), hbit 26 (by omega),
    hbit 27 (by omega), ← take_two_drop_iff (by omega), decodeFrame]
  refine ⟨fun hmarker => ?_, fun hmarker => ?_⟩
  · rw [decodeModern32, if_pos hmarker]
    refine ⟨_, rfl, fun i hi => ?_, getElem?_eq_some_getD (by omega), getElem?_eq_some_getD (by omega), fun j hj => ?_⟩
    · rw [hbit i (by omega)]
      exact getElem?_of_take_field (by decide) (by omega) hi
    · rw [← List.getElem?_drop]
      exact getElem?_of_take_field (by decide) (by rw [List.length_drop]; omega) hj
  · rw [decodeModern32, if_neg hmarker]
    rfl

/-! ### A frame parsed back -/

theorem decodeLegacy12_frame12Bits (f : CmdFields) :
    decodeLegacy12 (frame12Bits f) = some (Command.onWire { version := .legacy12, fields := f }) := by
  have hstate : (frame12Bits f).getD 11 false = f.state := by
    rw [List.getD_eq_getElem?_getD, frame12Bits_getElem?_high f 3]
    rfl
  have hdevice : BitVec.ofNat 24 (ofBits ((frame12Bits f).take 8)) = f.device &&& 0xFF := by
    rw [frame12Bits_take, ofBits_msbFirst]
    have hlow : (f.device.extractLsb' 0 8).toNat = f.device.toNat % 256 := BitVec.extractLsb'_toNat 0 8 f.device
    have hmask : (f.device &&& 0xFF).toNat = f.device.toNat % 256 :=
      (BitVec.toNat_and _ _).trans (Nat.and_two_pow_sub_one_eq_mod _ 8)
    refine BitVec.eq_of_toNat_eq ?_
    rw [BitVec.toNat_ofNat, hlow, hmask]
    omega
  have hmarker : ((frame12Bits f).drop 8).take 3 = [false, true, true] := by
    rw [frame12Bits_drop]
    rfl
  rw [decodeLegacy12, if_pos hmarker, hstate, hdevice]
  rfl

theorem decodeModern32_frame32Bits (f : CmdFields) : decodeModern32 (frame32Bits f) = some { version := .modern32, fields := f } := by
  have hgroup : (frame32Bits f).getD 26 false = f.group := by
    rw [List.getD_eq_getElem?_getD, frame32Bits_getElem?_high f 2]
    rfl
  have hstate : (frame32Bits f).getD 27 false = f.state := by
    rw [List.getD_eq_getElem?_getD, frame32Bits_getElem?_high f 3]
    rfl
  have hchannel : ((frame32Bits f).drop 28).take 4 = msbFirst f.channel := by
    rw [show 28 = 24 + 4 from rfl, ← List.drop_drop, frame32Bits_drop]
    exact List.take_of_length_le (Nat.le_of_eq (msbFirst_length f.channel))
  have hmarker : ((frame32Bits f).drop 24).take 2 = [true, false] := by
    rw [frame32Bits_drop]
    rfl
  rw [decodeModern32, if_pos hmarker, hgroup, hstate, hchannel, frame32Bits_take, ofBits_msbFirst, ofBits_msbFirst,
    ofNat_toNat_self, ofNat_toNat_self]

/-- The mode in which a format's frame is parsed (R182). -/
def parserModeOf : Version → ParserMode
  | .legacy12 => .b
  | .modern32 => .a

theorem frameBits_length_mode (c : Command) : (frameBits c).length = frameLength (parserModeOf c.version) := by
  rw [frameBits_length]
  obtain ⟨_ | _, f⟩ := c
  · rfl
  · rfl

/-- R189: the frame of a command decodes to the command as it stands on the wire. -/
theorem decodeFrame_frameBits (c : Command) : decodeFrame (parserModeOf c.version) (frameBits c) = some c.onWire := by
  obtain ⟨_ | _, f⟩ := c
  · exact decodeLegacy12_frame12Bits f
  · exact decodeModern32_frame32Bits f

theorem exec_parseToken_sync (v : Version) (s : State) :
    exec (.parseToken (syncToken v)) s = .next (parseSync (parserModeOf v) s) := by
  cases v
  · rfl
  · rfl

/-- Bits that do not complete their frame are kept, in order. -/
theorem run_parse_bits {mode : ParserMode} (started : mode ≠ .none) (bits : List Bool) {s : State}
    (hmode : s.parser.mode = mode) (hlen : s.parser.bits.length + bits.length < frameLength mode) :
    ∃ t os, run (bits.map fun b => .parseToken (.bit b)) s = some (t, os) ∧ yields os = [] ∧
      t.parser = { mode := mode, bits := s.parser.bits ++ bits } := by
  induction bits generalizing s with
  | nil => exact ⟨s, [], rfl, rfl, by rw [List.append_nil, ← hmode]⟩
  | cons b bits ih =>
    rw [List.length_cons] at hlen
    have hexec := (exec_parseToken_bit s b).trans (congrArg _ (parseBit_of_not_last hmode started (by omega) b))
    obtain ⟨t, os, hrun, hyields, hparser⟩ := ih rfl
      (s := { s with parser := { mode := mode, bits := s.parser.bits ++ [b] }, out := { ret := .command none } })
      (by rw [List.length_append, List.length_singleton]; omega)
    refine ⟨t, _, run_cons hexec hrun, hyields, ?_⟩
    rw [hparser, List.append_assoc, List.singleton_append]

/-- A whole frame's tokens, parsed whatever was in progress, yield the one command and leave the parser idle (R181, R189). -/
theorem run_parse_frame (c : Command) (s : State) :
    ∃ t os, run ((frameTokens c).map .parseToken) s = some (t, os) ∧ yields os = [c.onWire] ∧ t.parser = {} := by
  obtain ⟨bits, b, hbits⟩ : ∃ bits b, frameBits c = bits ++ [b] :=
    ⟨_, _, (List.dropLast_append_getLast (frameBits_ne_nil c)).symm⟩
  have hlen : bits.length + 1 = frameLength (parserModeOf c.version) := by
    rw [← frameBits_length_mode, hbits, List.length_append, List.length_singleton]
  have started : parserModeOf c.version ≠ .none := by cases c.version <;> decide
  obtain ⟨t, os, hrun, hyields, hparser⟩ :=
    run_parse_bits started bits (s := parseSync (parserModeOf c.version) s) rfl
      (by rw [← hlen]; exact Nat.lt_succ_of_le (Nat.le_of_eq (Nat.zero_add _)))
  have hmode : t.parser.mode = parserModeOf c.version := by rw [hparser]
  have hkept : t.parser.bits = bits := by rw [hparser]; rfl
  have hlast := (exec_parseToken_bit t b).trans (congrArg _ (parseBit_of_last hmode started (by rw [hkept, hlen]) b))
  rw [hkept, ← hbits, decodeFrame_frameBits] at hlast
  have htokens : (frameTokens c).map Instr.parseToken =
      .parseToken (syncToken c.version) :: ((bits.map fun b => .parseToken (.bit b)) ++ [.parseToken (.bit b)]) := by
    rw [frameTokens, hbits]
    simp
  refine ⟨_, _, htokens ▸ run_cons (exec_parseToken_sync c.version s) (run_append hrun (run_single hlast)), ?_, rfl⟩
  rw [yields_cons, yields_append, hyields]
  rfl

/-! ### The round trip -/

theorem run_parse_frames (c : Command) (n : Nat) {s : State} (hs : s.parser = {}) :
    ∃ t os, run ((List.replicate n (frameTokens c)).flatten.map .parseToken) s = some (t, os) ∧
      yields os = List.replicate n c.onWire ∧ t.parser = {} := by
  induction n generalizing s with
  | zero => exact ⟨s, [], rfl, rfl, hs⟩
  | succ n ih =>
    obtain ⟨t, os, hrun, hyields, hparser⟩ := run_parse_frame c s
    obtain ⟨u, ps, hrun', hyields', hparser'⟩ := ih hparser
    rw [List.replicate_succ, List.flatten_cons, List.map_append, List.replicate_succ]
    exact ⟨u, _, run_append hrun hrun', by rw [yields_append, hyields, hyields', List.singleton_append], hparser'⟩

/-- As many `POP`s as the buffer has tokens empty it and touch nothing else that matters here (R131). -/
theorem run_pops (s : State) :
    ∃ t os, run (List.replicate s.fifo.length .pop) s = some (t, os) ∧ t.fifo = [] ∧ pushes os = [] ∧ t.parser = s.parser := by
  generalize hfifo : s.fifo = tokens
  induction tokens generalizing s with
  | nil => exact ⟨s, [], rfl, hfifo, rfl, rfl⟩
  | cons token tokens ih =>
    obtain ⟨t, os, hrun, hempty, hpushes, hparser⟩ := ih { s with fifo := tokens, out := { ret := .popped (some token) } } rfl
    exact ⟨t, _, run_cons (exec_pop_of_cons hfifo) hrun, hempty, hpushes, hparser⟩

theorem reset_not_mem_pulsesOf_append_pops (segs : List Segment) (n : Nat) :
    Instr.reset ∉ pulsesOf segs ++ List.replicate n .pop := by
  simp [pulsesOf]

/-- Tokens received into an empty buffer and popped: the buffer is empty again, and what was popped is what was pushed, since the buffer
is first in, first out (R42). -/
theorem run_receive_pop {segs : List Segment} {s t : State} {ts : List Token} {m : Nat} {st : RxState} {os : List Outputs}
    (h : Receives (pulsesOf segs) s ts m st t os) (hs : s.fifo = []) :
    ∃ u ps, run (pulsesOf segs ++ List.replicate ts.length .pop) s = some (u, ps) ∧ pops ps = ts ∧ u.fifo = [] ∧
      u.parser = s.parser := by
  have ht : t.fifo = ts := by rw [h.fifo, hs, List.nil_append]
  obtain ⟨u, ps, hrun, hempty, hpushes, hparser⟩ := run_pops t
  rw [ht] at hrun
  have hboth := run_append h.runs hrun
  have horder := firstInFirstOut _ _ _ _ (reset_not_mem_pulsesOf_append_pops segs ts.length) hboth
  rw [hempty, hs, List.append_nil, List.nil_append, pushes_append, hpushes, h.pushed, List.append_nil] at horder
  exact ⟨u, _, hboth, horder, hempty, hparser.trans h.parser⟩

/-- R189: `n` frames of a command received, popped and parsed. -/
theorem run_round_trip {segs : List Segment} {c : Command} {n m : Nat} {s t : State} {st : RxState} {os : List Outputs}
    (h : Receives (pulsesOf segs) s (List.replicate n (frameTokens c)).flatten m st t os) (hs : s.fifo = []) (hp : s.parser = {}) :
    ∃ t os u ps, run (pulsesOf segs ++ List.replicate (n * (frameTokens c).length) .pop) s = some (t, os) ∧ t.fifo = [] ∧
      run ((pops os).map .parseToken) t = some (u, ps) ∧ yields ps = List.replicate n c.onWire ∧ u.parser = {} := by
  obtain ⟨u, ps, hrun, hpops, hempty, hparser⟩ := run_receive_pop h hs
  obtain ⟨w, qs, hparse, hyields, hidle⟩ := run_parse_frames c n (hparser.trans hp)
  rw [length_flatten_replicate] at hrun
  exact ⟨u, ps, w, qs, hrun, hempty, by rw [hpops]; exact hparse, hyields, hidle⟩

/-- A valid command has no field that the wire does not carry (R59, R162). -/
theorem onWire_of_valid {c : Command} (h : c.valid = true) : c.onWire = c := by
  obtain ⟨v, device, group, channel, state⟩ := c
  cases v with
  | modern32 => rfl
  | legacy12 =>
    simp only [Command.valid, Bool.and_eq_true, decide_eq_true_eq, Bool.not_eq_true'] at h
    obtain ⟨⟨hdevice, rfl⟩, rfl⟩ := h
    have hlow : device &&& 0xFF = device := by
      refine BitVec.eq_of_toNat_eq ?_
      rw [BitVec.toNat_and]
      exact (Nat.and_two_pow_sub_one_eq_mod device.toNat 8).trans (Nat.mod_eq_of_lt hdevice)
    rw [Command.onWire, hlow]

/-- Settles O47: one frame, and a valid command is its own value on the wire. -/
theorem roundTrip : Obligations.RoundTrip := by
  intro c s hvalid hs hfifo room hparser
  obtain ⟨t, os, received, -⟩ := receives_rep c hs (by rw [hfifo, List.length_nil, Nat.zero_add]; exact room)
  have one : (List.replicate 1 (frameTokens c)).flatten = frameTokens c := List.append_nil _
  rw [← one] at received
  have h := run_round_trip received hfifo hparser
  rw [Nat.one_mul, onWire_of_valid hvalid] at h
  exact h

/-- Settles O48: of the repetitions every second is received, and each received frame is popped and parsed whole. -/
theorem repeatedRoundTrip : Obligations.RepeatedRoundTrip := by
  intro c repeats s hs hfifo room hparser
  obtain ⟨st, t, os, received⟩ :=
    receives_waveform c repeats hs (by rw [hfifo, List.length_nil, Nat.zero_add]; exact room)
  exact run_round_trip received hfifo hparser

end Sys2Proof.Machine

/-! PROOF. The Pulse Classifier (40_classify.md; 70_reset_and_hazards.md, section 4): a category is its magnitude's bucket with the
duration's sign, so every law of `classify` is one of `magnitude`. -/

namespace Sys2Proof.Machine

/-- The integer of a category is its magnitude with the level as its sign (R60, R80). -/
theorem signedCategory_toInt (level : Level) {m : Nat} (h : m ≤ 5) : (signedCategory level m).toInt = signedDuration level m := by
  have small : ∀ k < 6, (signedCategory .high k).toInt = signedDuration .high k ∧
      (signedCategory .low k).toInt = signedDuration .low k := by decide
  obtain ⟨high, low⟩ := small m (by omega)
  cases level with
  | high => exact high
  | low => exact low

theorem classify_toInt (p : Nat) : (classify p).toInt = magnitude p := by
  rw [classify_ofNat, signedCategory_toInt _ (magnitude_le p)]
  rfl

theorem classify_neg_toInt (p : Nat) : (classify (-(p : Int))).toInt = -(magnitude p : Int) := by
  rw [classify_neg, signedCategory_toInt _ (magnitude_le p)]
  rfl

theorem magnitude_mono {p q : Nat} (hp : 0 < p) (h : p ≤ q) (hq : q < 16384) : magnitude p ≤ magnitude q := by
  rw [magnitude_eq, magnitude_eq]
  split_ifs
  all_goals omega

/-- A duration with a valid category has a bucket, and is not 0. -/
theorem magnitude_pos_of_valid {level : Level} {p : Nat} (h : signedCategory level (magnitude p) ≠ .inv) :
    0 < magnitude p ∧ 0 < p := by
  have hm : magnitude p ≠ 0 := fun h0 => h (by rw [h0, signedCategory_zero])
  have hp : p ≠ 0 := fun h0 => hm (by rw [h0, magnitude_zero])
  omega

/-- Settles O3, for a duration of either sign: each law is one of the magnitude. -/
theorem classifyLaws : Obligations.ClassifyLaws := by
  refine ⟨fun d => ?_, fun p q hp hpq hq => ?_, fun d hd => ?_, fun d => ?_⟩
  · obtain ⟨n, rfl | rfl⟩ := d.eq_nat_or_neg
    · rw [classify_neg_toInt, classify_toInt]
    · rw [Int.neg_neg, classify_neg_toInt, classify_toInt, Int.neg_neg]
  · obtain ⟨m, rfl⟩ := Int.eq_ofNat_of_zero_le (Int.le_of_lt hp)
    obtain ⟨n, rfl⟩ := Int.eq_ofNat_of_zero_le (Int.le_trans (Int.le_of_lt hp) hpq)
    rw [classify_toInt, classify_toInt]
    exact magnitude_mono (by omega) (by omega) (by omega)
  · obtain ⟨n, rfl | rfl⟩ := d.eq_nat_or_neg
    · have := magnitude_pos_of_valid (classify_ofNat n ▸ hd)
      rw [classify_toInt]
      omega
    · have := magnitude_pos_of_valid (classify_neg n ▸ hd)
      rw [classify_neg_toInt]
      omega
  · obtain ⟨n, rfl | rfl⟩ := d.eq_nat_or_neg
    · have := magnitude_le n
      rw [classify_toInt]
      omega
    · have := magnitude_le n
      rw [classify_neg_toInt]
      omega

/-! ### The magnitude rows -/

/-- A row that names the bucket of a magnitude returns the category of the duration with that magnitude. -/
theorem rowCategory_of_magnitude {p m : Nat} (h : magnitude p = m) (s : State) (level : Level) :
    rowCategory s level m = { s with out := { ret := .category (classify (signedDuration level p)) } } := by
  rw [classify_signedDuration, h]
  rfl

/-- Settles O4, row by row: the row's pattern bounds its magnitude, and the bounds give the bucket. -/
theorem magnitudeRowsReturnTheCategory : Obligations.MagnitudeRowsReturnTheCategory := by
  intro s level
  refine ⟨rfl, fun low => ?_, fun low => ?_, fun low => ?_, fun low => ?_, fun low => ?_, fun low => ?_, fun p hp => ?_⟩
  · refine congrArg Host.Outcome.next (rowCategory_of_magnitude ?_ s level)
    split
    · rename_i hzero
      rw [hzero]
      rfl
    · rename_i hlow
      have : low.toNat ≠ 0 := fun h => hlow (BitVec.eq_of_toNat_eq h)
      exact magnitude_one (by omega) low.isLt
  · have := low.isLt
    exact congrArg Host.Outcome.next (rowCategory_of_magnitude (magnitude_two (by omega) (by omega)) s level)
  · have := low.isLt
    exact congrArg Host.Outcome.next (rowCategory_of_magnitude (magnitude_two (by omega) (by omega)) s level)
  · have := low.isLt
    exact congrArg Host.Outcome.next (rowCategory_of_magnitude (magnitude_three (by omega) (by omega)) s level)
  · have := low.isLt
    exact congrArg Host.Outcome.next (rowCategory_of_magnitude (magnitude_four (by omega) (by omega)) s level)
  · have := low.isLt
    exact congrArg Host.Outcome.next (rowCategory_of_magnitude (magnitude_five (by omega) (by omega)) s level)
  · exact congrArg Host.Outcome.next (rowCategory_of_magnitude (magnitude_invalid hp) s level)

/-! ### The margins -/

/-- The bounds of the valid buckets (R80), as equivalences. -/
theorem magnitude_eq_one_iff {p : Nat} : magnitude p = 1 ↔ 1 ≤ p ∧ p < 512 := by
  rw [magnitude_eq]
  repeat' split
  all_goals omega

theorem magnitude_eq_two_iff {p : Nat} : magnitude p = 2 ↔ 512 ≤ p ∧ p < 2048 := by
  rw [magnitude_eq]
  repeat' split
  all_goals omega

theorem magnitude_eq_three_iff {p : Nat} : magnitude p = 3 ↔ 2048 ≤ p ∧ p < 4096 := by
  rw [magnitude_eq]
  repeat' split
  all_goals omega

theorem magnitude_eq_five_iff {p : Nat} : magnitude p = 5 ↔ 8192 ≤ p ∧ p < 16384 := by
  rw [magnitude_eq]
  repeat' split
  all_goals omega

/-- Durations of one sign have one category exactly when their magnitudes have one bucket. -/
theorem classify_eq_iff (p q : Nat) : classify p = classify q ↔ magnitude p = magnitude q := by
  constructor
  · intro h
    have := congrArg Category.toInt h
    rw [classify_toInt, classify_toInt] at this
    omega
  · intro h
    rw [classify_ofNat, classify_ofNat, h]

theorem classify_neg_eq_iff (p q : Nat) : classify (-(p : Int)) = classify (-(q : Int)) ↔ magnitude p = magnitude q := by
  constructor
  · intro h
    have := congrArg Category.toInt h
    rw [classify_neg_toInt, classify_neg_toInt] at this
    omega
  · intro h
    rw [classify_neg, classify_neg, h]

/-- The margins of a nominal duration are those of both its signs, once they are its bucket. -/
theorem margins_of_bucket {n m lower upper : Nat} (hn : magnitude n = m)
    (hbucket : ∀ p, magnitude p = m ↔ lower ≤ p ∧ p < upper + 1) (p : Nat) :
    (lower ≤ p ∧ p ≤ upper ↔ classify p = classify n) ∧
      (lower ≤ p ∧ p ≤ upper ↔ classify (-(p : Int)) = classify (-(n : Int))) := by
  rw [classify_eq_iff, classify_neg_eq_iff, hn, hbucket, Nat.lt_succ_iff]
  exact ⟨Iff.rfl, Iff.rfl⟩

/-- Settles O5, nominal duration by nominal duration: the margins reach exactly to the ends of its bucket. -/
theorem nominalMargins : Obligations.NominalMargins := by
  intro n below above h p
  simp only [List.mem_cons, Prod.mk.injEq, List.not_mem_nil, or_false] at h
  obtain ⟨rfl, rfl, rfl⟩ | ⟨rfl, rfl, rfl⟩ | ⟨rfl, rfl, rfl⟩ | ⟨rfl, rfl, rfl⟩ | ⟨rfl, rfl, rfl⟩ | ⟨rfl, rfl, rfl⟩ |
    ⟨rfl, rfl, rfl⟩ | ⟨rfl, rfl, rfl⟩ := h
  · exact margins_of_bucket rfl (fun _ => magnitude_eq_one_iff) p
  · exact margins_of_bucket rfl (fun _ => magnitude_eq_two_iff) p
  · exact margins_of_bucket rfl (fun _ => magnitude_eq_five_iff) p
  · exact margins_of_bucket rfl (fun _ => magnitude_eq_one_iff) p
  · exact margins_of_bucket rfl (fun _ => magnitude_eq_one_iff) p
  · exact margins_of_bucket rfl (fun _ => magnitude_eq_two_iff) p
  · exact margins_of_bucket rfl (fun _ => magnitude_eq_three_iff) p
  · exact margins_of_bucket rfl (fun _ => magnitude_eq_five_iff) p

end Sys2Proof.Machine

/-! PROOF. Waveforms (43_transmit.md, sections 2 to 5): their symbols, sizes and levels, how they look on the wire, and the split of a
wait. -/

namespace Sys2Proof.Machine

/-- Settles O35: the rows return the symbols' own segments; durations and categories compute. -/
theorem symbolSegments : Obligations.SymbolSegments := by
  refine ⟨fun s => ⟨rfl, rfl, rfl, rfl, rfl, rfl, rfl, rfl⟩, ?_, ?_, ?_, ?_, ?_, ?_⟩
  · exact ⟨rfl, rfl⟩
  · exact ⟨rfl, rfl⟩
  · exact ⟨rfl, rfl⟩
  · exact ⟨rfl, rfl⟩
  · exact ⟨rfl, rfl⟩
  · exact ⟨rfl, rfl⟩

/-! ### Sizes -/

theorem totalDuration_append (xs ys : List Segment) : totalDuration (xs ++ ys) = totalDuration xs + totalDuration ys := by
  rw [totalDuration, List.map_append, List.sum_append]
  rfl

/-- Bit symbols all have four segments. -/
theorem length_bits (v : Version) (bits : List Bool) : (bits.flatMap (bitSymbol v)).length = 4 * bits.length := by
  have four : ∀ b, (bitSymbol v b).length = 4 := by cases v <;> decide
  induction bits with
  | nil => rfl
  | cons b bits ih =>
    rw [List.flatMap_cons, List.length_append, four, ih, List.length_cons]
    omega

/-- The bit symbols of one format all take the same time (R153 to R157). -/
theorem totalDuration_bits {v : Version} {k : Nat} (hk : ∀ b, totalDuration (bitSymbol v b) = k) (bits : List Bool) :
    totalDuration (bits.flatMap (bitSymbol v)) = k * bits.length := by
  induction bits with
  | nil => rfl
  | cons b bits ih => rw [List.flatMap_cons, totalDuration_append, hk, ih, List.length_cons, Nat.mul_succ, Nat.add_comm]

theorem totalDuration_flatten_replicate (n : Nat) (segs : List Segment) :
    totalDuration (List.replicate n segs).flatten = totalDuration segs * n := by
  induction n with
  | zero => rfl
  | succ n ih =>
    rw [List.replicate_succ, List.flatten_cons, totalDuration_append, ih, Nat.mul_succ, Nat.add_comm]

theorem length_rep (c : Command) : (rep c).length = (syncSymbol c.version).length + 4 * (frameBits c).length := by
  rw [rep, List.length_append, length_bits]

theorem length_waveform (c : Command) (n : Nat) : (waveform c n).length = (rep c).length * n + (termSymbol c.version).length := by
  rw [waveform, List.length_append, length_flatten_replicate, Nat.mul_comm]

theorem totalDuration_waveform (c : Command) (n : Nat) :
    totalDuration (waveform c n) = totalDuration (rep c) * n + totalDuration (termSymbol c.version) := by
  rw [waveform, totalDuration_append, totalDuration_flatten_replicate]

/-- R163, R251 for one repetition of each format. -/
theorem rep_legacy12_size (f : CmdFields) :
    (rep { version := .legacy12, fields := f }).length = 50 ∧ totalDuration (rep { version := .legacy12, fields := f }) = 44800 := by
  constructor
  · rw [length_rep, frameBits_length]
    rfl
  · have hsync : totalDuration (syncSymbol .legacy12) = 11200 := rfl
    have hbits := totalDuration_bits (v := .legacy12) (k := 2800) (by decide) (frameBits { version := .legacy12, fields := f })
    rw [frameBits_legacy12_length] at hbits
    rw [rep, totalDuration_append, hsync, hbits]

theorem rep_modern32_size (f : CmdFields) :
    (rep { version := .modern32, fields := f }).length = 132 ∧ totalDuration (rep { version := .modern32, fields := f }) = 79685 := by
  constructor
  · rw [length_rep, frameBits_length]
    rfl
  · have hsync : totalDuration (syncSymbol .modern32) = 13413 := rfl
    have hbits := totalDuration_bits (v := .modern32) (k := 2071) (by decide) (frameBits { version := .modern32, fields := f })
    rw [frameBits_modern32_length] at hbits
    rw [rep, totalDuration_append, hsync, hbits]

/-- Settles O36: the symbols' sizes, added up. -/
theorem waveformSizes : Obligations.WaveformSizes := by
  intro f n
  obtain ⟨hlength12, htime12⟩ := rep_legacy12_size f
  obtain ⟨hlength32, htime32⟩ := rep_modern32_size f
  refine ⟨hlength12, htime12, hlength32, htime32, ?_, ?_, ?_, ?_⟩
  · rw [length_waveform, hlength12]
    rfl
  · rw [length_waveform, hlength32]
    rfl
  · rw [totalDuration_waveform, htime12]
    rfl
  · rw [totalDuration_waveform, htime32]
    rfl

/-! ### Levels -/

/-- The segments' levels alternate, and the first one, if there is one, is `level`. -/
def alternatesFrom (level : Level) : List Segment → Bool
  | [] => true
  | g :: rest => g.level == level && alternatesFrom level.flip rest

theorem flip_involutive : Function.Involutive Level.flip := fun level => by cases level <;> rfl

theorem alternatesFrom_append (level : Level) (xs ys : List Segment) :
    alternatesFrom level (xs ++ ys) = (alternatesFrom level xs && alternatesFrom (Level.flip^[xs.length] level) ys) := by
  induction xs generalizing level with
  | nil => rfl
  | cons g xs ih =>
    rw [List.cons_append, alternatesFrom, alternatesFrom, ih, Bool.and_assoc]
    rfl

/-- An even number of segments hands the level on. -/
theorem alternatesFrom_append_even {level : Level} {xs ys : List Segment} (heven : Even xs.length)
    (hx : alternatesFrom level xs = true) (hy : alternatesFrom level ys = true) : alternatesFrom level (xs ++ ys) = true := by
  rw [alternatesFrom_append, hx, flip_involutive.iterate_even heven]
  exact hy

theorem alternating_of_alternatesFrom {level : Level} {segs : List Segment} (h : alternatesFrom level segs = true) :
    alternating segs = true := by
  induction segs generalizing level with
  | nil => rfl
  | cons g segs ih =>
    rw [alternatesFrom, Bool.and_eq_true, beq_iff_eq] at h
    obtain ⟨rfl, hrest⟩ := h
    cases segs with
    | nil => rfl
    | cons g' segs =>
      have hne : g.level ≠ g'.level := by
        rw [alternatesFrom, Bool.and_eq_true, beq_iff_eq] at hrest
        rw [hrest.1]
        cases g.level <;> decide
      rw [alternating, ih hrest, Bool.and_true]
      exact bne_iff_ne.mpr hne

/-- The level at which every symbol of a format starts. -/
def startLevel : Version → Level
  | .legacy12 => .high
  | .modern32 => .low

theorem alternatesFrom_bits (v : Version) (bits : List Bool) : alternatesFrom (startLevel v) (bits.flatMap (bitSymbol v)) = true := by
  induction bits with
  | nil => rfl
  | cons b bits ih =>
    have heven : Even (bitSymbol v b).length := by cases v <;> cases b <;> decide
    have hbit : alternatesFrom (startLevel v) (bitSymbol v b) = true := by cases v <;> cases b <;> decide
    exact alternatesFrom_append_even heven hbit ih

theorem alternatesFrom_rep (c : Command) : alternatesFrom (startLevel c.version) (rep c) = true ∧ Even (rep c).length := by
  have heven : Even (syncSymbol c.version).length := by cases c.version <;> decide
  have hsync : alternatesFrom (startLevel c.version) (syncSymbol c.version) = true := by cases c.version <;> decide
  refine ⟨alternatesFrom_append_even heven hsync (alternatesFrom_bits c.version (frameBits c)), ?_⟩
  rw [length_rep]
  exact heven.add (Even.mul_right (by decide) _)

theorem alternatesFrom_waveform (c : Command) (n : Nat) : alternatesFrom (startLevel c.version) (waveform c n) = true := by
  have hterm : alternatesFrom (startLevel c.version) (termSymbol c.version) = true := by cases c.version <;> decide
  rw [waveform]
  induction n with
  | zero => exact hterm
  | succ n ih =>
    obtain ⟨hrep, heven⟩ := alternatesFrom_rep c
    rw [List.replicate_succ, List.flatten_cons, List.append_assoc]
    exact alternatesFrom_append_even heven hrep ih

/-- The last of alternating segments has the first one's level if their number is odd, and the other one if it is even. -/
theorem level_of_getLast? {level : Level} {segs : List Segment} {g : Segment} (h : alternatesFrom level segs = true)
    (hlast : segs.getLast? = some g) : g.level = if Even segs.length then level.flip else level := by
  obtain ⟨xs, rfl⟩ := List.getLast?_eq_some_iff.mp hlast
  rw [alternatesFrom_append, Bool.and_eq_true, alternatesFrom, Bool.and_eq_true, beq_iff_eq] at h
  obtain ⟨-, hlevel, -⟩ := h
  rw [hlevel, List.length_append, List.length_singleton]
  by_cases heven : Even xs.length
  · rw [flip_involutive.iterate_even heven, if_neg (by rw [Nat.even_add_one, not_not]; exact heven)]
    rfl
  · rw [flip_involutive.iterate_odd (Nat.not_even_iff_odd.mp heven), if_pos (Nat.even_add_one.mpr heven)]

/-- Settles O37: every repetition is an even number of alternating segments from the format's start level, so the last segment is `HIGH` in
both formats: the terminator's own in Legacy12, the last of an even number from `LOW` in Modern32. -/
theorem waveformAlternates : Obligations.WaveformAlternates := by
  intro c n
  have h := alternatesFrom_waveform c n
  refine ⟨alternating_of_alternatesFrom h, fun g hg => ?_⟩
  rw [level_of_getLast? h hg, length_waveform]
  have heven : Even ((rep c).length * n) := (alternatesFrom_rep c).2.mul_right n
  cases c.version with
  | legacy12 => rw [if_neg (by rw [termSymbol, term12, List.length_singleton, Nat.even_add_one, not_not]; exact heven)]; rfl
  | modern32 => rw [if_pos (by rw [termSymbol, term32, List.length_nil, Nat.add_zero]; exact heven)]; rfl

/-! ### On the wire -/

/-- Segments of alternating levels are their own edges: none join. -/
theorem mergeLevels_of_alternating : ∀ {segs : List Segment}, alternating segs = true → mergeLevels segs = segs
  | [], _ => rfl
  | [_], _ => rfl
  | s :: t :: rest, h => by
    rw [alternating, Bool.and_eq_true, bne_iff_ne] at h
    obtain ⟨hne, hrest⟩ := h
    rw [mergeLevels, mergeLevels_of_alternating hrest]
    exact if_neg hne

/-- A segment of the level at which the others start joins their first one. -/
theorem mergeLevels_join {s t : Segment} {rest : List Segment} (h : alternating (t :: rest) = true) (hlevel : s.level = t.level) :
    mergeLevels (s :: t :: rest) = { level := s.level, duration := s.duration + t.duration } :: rest := by
  rw [mergeLevels, mergeLevels_of_alternating h]
  exact if_pos hlevel

/-- A Modern32 waveform starts with the long `LOW` of its sync symbol (R155). -/
theorem waveform_modern32_head (f : CmdFields) (n : Nat) :
    ∃ rest, waveform { version := .modern32, fields := f } (n + 1) = lo 10150 :: rest := by
  rw [waveform, List.replicate_succ, List.flatten_cons]
  exact ⟨_, rfl⟩

/-- Settles O38: a waveform alternates, so nothing in it joins, but an idle `LOW` before it joins a first `LOW`. -/
theorem waveformOnTheWire : Obligations.WaveformOnTheWire := by
  refine ⟨fun c n => ?_, fun f n t => ?_⟩
  · rw [wirePulses, mergeLevels_of_alternating (alternating_of_alternatesFrom (alternatesFrom_waveform c n))]
  · obtain ⟨rest, hwave⟩ := waveform_modern32_head f n
    have halt := alternating_of_alternatesFrom (alternatesFrom_waveform { version := .modern32, fields := f } (n + 1))
    rw [hwave] at halt ⊢
    have hsum : (t : Int) + 10150 = ((t + 10150 : Nat) : Int) := by omega
    refine ⟨rest.map segPulse, rfl, ?_, fun ht => ?_, fun ht => ?_⟩
    · rw [wirePulses, mergeLevels_join (s := lo t) halt rfl, hsum]
      rfl
    · rw [hsum, classify_neg, magnitude_five (by omega) (by omega)]
      rfl
    · rw [hsum, classify_neg, magnitude_invalid (by omega)]
      rfl

/-! ### The split of a wait -/

/-- With fuel for the whole wait, by induction over the fuel: each chunk takes at least one microsecond off. -/
theorem splitWait_spec {maxWait : Nat} (hpos : 0 < maxWait) (fuel : Nat) {t : Nat} (ht : t ≤ fuel) :
    (splitWait maxWait fuel t).sum = t ∧ ∀ w ∈ splitWait maxWait fuel t, w ≤ maxWait := by
  induction fuel generalizing t with
  | zero =>
    cases Nat.le_zero.mp ht
    simp [splitWait]
  | succ fuel ih =>
    rw [splitWait]
    split
    · rename_i hshort
      simpa using hshort
    · rename_i hlong
      obtain ⟨hsum, hchunks⟩ := ih (t := t - maxWait) (by omega)
      constructor
      · rw [List.sum_cons, hsum]
        omega
      · intro w hw
        obtain rfl | hw := List.mem_cons.mp hw
        · exact Nat.le_refl _
        · exact hchunks w hw

/-- Settles O42: the fuel that the statement gives is the wait itself. -/
theorem waitSplitKeepsTheTime : Obligations.WaitSplitKeepsTheTime :=
  fun _ t hpos => splitWait_spec hpos t (Nat.le_refl t)

/-! ### Reset -/

/-- Settles O1: `RESET` writes the values of `State.reset`, register by register. -/
theorem resetWritesEveryRegister : Obligations.ResetWritesEveryRegister :=
  ⟨fun _ => rfl, rfl, rfl, rfl, rfl, rfl, rfl, rfl⟩

end Sys2Proof.Machine

/-! PROOF. The Command Text Codec (44_host_parser.md, section 2): a line has a command exactly when it fits the grammar, the command is
read off its positions, and printing is undone by parsing. -/

namespace Sys2Proof.Machine

/-! ### Runs of hex digits -/

/-- The number of a run of digits, most significant first. -/
def digitsNumber (digits : List Nat) : Nat := digits.foldl (fun n d => 16 * n + d) 0

section Fold

variable {f : Option Nat → Byte → Option Nat}

/-- A fold that takes one digit more from each character with a value. -/
theorem foldl_digits (hf : ∀ n ch d, hexValue ch = some d → f (some n) ch = some (16 * n + d)) (chars : List Byte)
    (digits : List Nat) (n : Nat) (h : chars.map hexValue = digits.map some) :
    chars.foldl f (some n) = some (digits.foldl (fun n d => 16 * n + d) n) := by
  induction chars generalizing digits n with
  | nil =>
    cases digits with
    | nil => rfl
    | cons d digits => cases h
  | cons ch chars ih =>
    cases digits with
    | nil => cases h
    | cons d digits =>
      obtain ⟨hd, hrest⟩ := List.cons.inj h
      rw [List.foldl_cons, hf n ch d hd, List.foldl_cons]
      exact ih digits _ hrest

/-- A fold that has failed stays failed, and it fails at a character without a value. -/
theorem all_isHexChar_of_foldl (hnone : ∀ ch, f none ch = none) (hf : ∀ n ch, hexValue ch = none → f (some n) ch = none)
    (chars : List Byte) (acc : Option Nat) {n : Nat} (h : chars.foldl f acc = some n) (ch : Byte) (hch : ch ∈ chars) :
    (hexValue ch).isSome = true := by
  have failed : ∀ rest : List Byte, rest.foldl f none = none := fun rest => by
    induction rest with
    | nil => rfl
    | cons x rest ih => rw [List.foldl_cons, hnone, ih]
  induction chars generalizing acc with
  | nil => cases hch
  | cons x chars ih =>
    rw [List.foldl_cons] at h
    obtain rfl | hch := List.mem_cons.mp hch
    · by_contra hval
      have hval : hexValue ch = none := by simpa using hval
      have hfail : f acc ch = none := by
        cases acc with
        | none => exact hnone ch
        | some m => exact hf m ch hval
      rw [hfail, failed] at h
      cases h
    · exact ih _ h hch

end Fold

theorem hexNumber_of_digits {chars : List Byte} {digits : List Nat} (h : chars.map hexValue = digits.map some) :
    hexNumber chars = some (digitsNumber digits) := by
  unfold hexNumber
  split
  · cases digits with
    | nil => rfl
    | cons d digits => cases h
  · exact foldl_digits (fun n ch d hd => by simp only [hd]) _ digits 0 h

/-- The values of characters, one by one. -/
theorem bind_hexValue_of_values {chars : List Byte} {digits : List Nat} (h : chars.map hexValue = digits.map some) (i : Nat) :
    (chars[i]?).bind hexValue = digits[i]? := by
  have hi : (chars.map hexValue)[i]? = (digits.map some)[i]? := by rw [h]
  rw [List.getElem?_map, List.getElem?_map] at hi
  cases hc : chars[i]? with
  | none =>
    rw [hc] at hi
    exact (Option.map_eq_none_iff.mp hi.symm).symm
  | some ch =>
    rw [hc] at hi
    obtain ⟨d, hd, hval⟩ := Option.map_eq_some_iff.mp hi.symm
    rw [hd]
    exact hval.symm

theorem isHexChar_of_hexNumber {chars : List Byte} {n : Nat} (h : hexNumber chars = some n) (ch : Byte) (hch : ch ∈ chars) :
    isHexChar ch = true := by
  rw [← hexValue_isSome]
  unfold hexNumber at h
  split at h
  · cases hch
  · exact all_isHexChar_of_foldl (fun ch => rfl) (fun n ch hval => by simp only [hval]) _ _ h ch hch

/-! ### A line of fourteen characters -/

/-- A line whose parts all have values is the command of these values (R190). -/
theorem parseLine_of_values {v d5 d4 d3 d2 d1 d0 g c s : Byte} {version : Version} {device channel : Nat} {group state : Bool}
    (hv : versionValue v = some version) (hd : hexNumber [d5, d4, d3, d2, d1, d0] = some device) (hg : boolValue g = some group)
    (hc : hexValue c = some channel) (hs : boolValue s = some state) :
    parseLine [v, colon, d5, d4, d3, d2, d1, d0, colon, g, colon, c, colon, s] =
      some
        { version := version
          fields := { device := BitVec.ofNat 24 device, group := group, channel := BitVec.ofNat 4 channel, state := state } } := by
  simp only [parseLine, hv, hd, hg, hc, hs, and_self, if_true]

theorem eq_versionChar {ch : Byte} {v : Version} (h : versionValue ch = some v) : ch = versionChar v := by
  have hsome : (versionValue ch).isSome = true := by rw [h]; rfl
  rw [versionValue_isSome, Bool.or_eq_true, beq_iff_eq, beq_iff_eq] at hsome
  obtain rfl | rfl := hsome
  · cases h
    rfl
  · cases h
    rfl

theorem eq_boolChar {ch : Byte} {b : Bool} (h : boolValue ch = some b) : ch = boolChar b := by
  have hsome : (boolValue ch).isSome = true := by rw [h]; rfl
  rw [boolValue_isSome, isBitChar, Bool.or_eq_true, beq_iff_eq, beq_iff_eq] at hsome
  obtain rfl | rfl := hsome
  · cases h
    rfl
  · cases h
    rfl

/-- R191 for a line given character by character. -/
theorem lineGrammar_fourteen (v k1 d5 d4 d3 d2 d1 d0 k8 g k10 c k12 s : Byte) :
    lineGrammar [v, k1, d5, d4, d3, d2, d1, d0, k8, g, k10, c, k12, s] = true ↔
      (k1 = colon ∧ k8 = colon ∧ k10 = colon ∧ k12 = colon) ∧
        (∀ ch ∈ [d5, d4, d3, d2, d1, d0, c], isHexChar ch = true) ∧ (isBitChar g = true ∧ isBitChar s = true) ∧
          (v == 0x31 || v == 0x32) = true := by
  simp [lineGrammar, colon, and_assoc]

theorem length_of_lineGrammar {chars : List Byte} (h : lineGrammar chars = true) : chars.length = 14 := by
  simp only [lineGrammar, Bool.and_eq_true, beq_iff_eq] at h
  exact h.1.1.1.1

/-- Only a line that fits the grammar has a command: every part that is read has a value. -/
theorem lineGrammar_of_parseLine {chars : List Byte} {cmd : Command} (h : parseLine chars = some cmd) : lineGrammar chars = true := by
  unfold parseLine at h
  split at h
  · rename_i v k1 d5 d4 d3 d2 d1 d0 k8 g k10 c k12 s
    split at h
    · rename_i hcolons
      split at h
      · rename_i version device group channel state hv hd hg hc hs
        refine (lineGrammar_fourteen v k1 d5 d4 d3 d2 d1 d0 k8 g k10 c k12 s).mpr ⟨hcolons, fun ch hch => ?_, ⟨?_, ?_⟩, ?_⟩
        · obtain hch | hch := List.mem_append.mp (show ch ∈ [d5, d4, d3, d2, d1, d0] ++ [c] from hch)
          · exact isHexChar_of_hexNumber hd ch hch
          · rw [List.mem_singleton.mp hch, ← hexValue_isSome, hc]
            rfl
        · rw [← boolValue_isSome, hg]
          rfl
        · rw [← boolValue_isSome, hs]
          rfl
        · rw [← versionValue_isSome, hv]
          rfl
      · cases h
    · cases h
  · cases h

theorem exists_hexValue {ch : Byte} (h : isHexChar ch = true) : ∃ n, hexValue ch = some n ∧ n < 16 := by
  obtain ⟨n, hn⟩ := Option.isSome_iff_exists.mp ((hexValue_isSome ch).trans h)
  exact ⟨n, hn, hexValue_lt hn⟩

/-- Hex digit `k` of a device is its bits from `4 * k` up. -/
theorem extract_eq_hexDigit (device : BitVec 24) (k : Nat) : (device.extractLsb' (4 * k) 4).toNat = hexDigit device.toNat k := by
  rw [BitVec.extractLsb'_toNat, Nat.shiftRight_eq_div_pow, hexDigit, Nat.pow_mul]

/-- The digits of a six-digit number, read back from the 24-bit device. -/
theorem hexDigit_digitsNumber {e5 e4 e3 e2 e1 e0 : Nat} (h5 : e5 < 16) (h4 : e4 < 16) (h3 : e3 < 16) (h2 : e2 < 16) (h1 : e1 < 16)
    (h0 : e0 < 16) {i : Nat} (hi : i < 6) :
    [e5, e4, e3, e2, e1, e0][i]? = some (hexDigit (BitVec.ofNat 24 (digitsNumber [e5, e4, e3, e2, e1, e0])).toNat (5 - i)) := by
  have hnum : digitsNumber [e5, e4, e3, e2, e1, e0] =
      1048576 * e5 + 65536 * e4 + 4096 * e3 + 256 * e2 + 16 * e1 + e0 := by
    simp only [digitsNumber, List.foldl_cons, List.foldl_nil]
    omega
  rw [BitVec.toNat_ofNat, hnum]
  unfold hexDigit
  interval_cases i <;> (refine congrArg some ?_; norm_num; omega)

theorem eq_fourteen {chars : List Byte} (h : chars.length = 14) :
    ∃ v k1 d5 d4 d3 d2 d1 d0 k8 g k10 c k12 s, chars = [v, k1, d5, d4, d3, d2, d1, d0, k8, g, k10, c, k12, s] :=
  match chars, h with
  | [_, _, _, _, _, _, _, _, _, _, _, _, _, _], _ => ⟨_, _, _, _, _, _, _, _, _, _, _, _, _, _, rfl⟩

theorem exec_line_parse (chars : List Byte) (s : State) :
    exec (.line (.parse chars)) s =
      .next { s with out := { ret := .command (parseLine chars), malformedText := (parseLine chars).isNone } } := rfl

theorem exec_line_print (c : Command) (s : State) :
    exec (.line (.print c)) s = .next { s with out := { ret := .text (lineChars c ++ [newline]) } } := rfl

/-- Settles O49: a line that fits has a value at every position, and a line that has a command fits. -/
theorem lineParsedByGrammar : Obligations.LineParsedByGrammar := by
  intro s chars
  rw [exec_line_parse]
  constructor
  · intro hgrammar
    obtain ⟨v, k1, d5, d4, d3, d2, d1, d0, k8, g, k10, c, k12, st, rfl⟩ := eq_fourteen (length_of_lineGrammar hgrammar)
    rw [lineGrammar_fourteen] at hgrammar
    obtain ⟨⟨rfl, rfl, rfl, rfl⟩, hhex, ⟨hg, hst⟩, hv⟩ := hgrammar
    obtain ⟨version, hv⟩ := Option.isSome_iff_exists.mp ((versionValue_isSome v).trans hv)
    obtain ⟨group, hg⟩ := Option.isSome_iff_exists.mp ((boolValue_isSome g).trans hg)
    obtain ⟨state, hst⟩ := Option.isSome_iff_exists.mp ((boolValue_isSome st).trans hst)
    obtain ⟨e5, he5, h5⟩ := exists_hexValue (hhex d5 (by simp))
    obtain ⟨e4, he4, h4⟩ := exists_hexValue (hhex d4 (by simp))
    obtain ⟨e3, he3, h3⟩ := exists_hexValue (hhex d3 (by simp))
    obtain ⟨e2, he2, h2⟩ := exists_hexValue (hhex d2 (by simp))
    obtain ⟨e1, he1, h1⟩ := exists_hexValue (hhex d1 (by simp))
    obtain ⟨e0, he0, h0⟩ := exists_hexValue (hhex d0 (by simp))
    obtain ⟨channel, hc, hchannel⟩ := exists_hexValue (hhex c (by simp))
    have hvalues : [d5, d4, d3, d2, d1, d0].map hexValue = [e5, e4, e3, e2, e1, e0].map some := by
      simp only [List.map_cons, List.map_nil, he5, he4, he3, he2, he1, he0]
    rw [parseLine_of_values hv (hexNumber_of_digits hvalues) hg hc hst]
    refine ⟨_, rfl, ?_, fun i hi => ?_, ?_, ?_, ?_⟩
    · rw [eq_versionChar hv]
      cases version <;> rfl
    · have hchar : [v, colon, d5, d4, d3, d2, d1, d0, colon, g, colon, c, colon, st][2 + i]? = [d5, d4, d3, d2, d1, d0][i]? := by
        rw [← List.getElem?_drop]
        exact List.getElem?_append_left (l₁ := [d5, d4, d3, d2, d1, d0]) hi
      rw [hchar, bind_hexValue_of_values hvalues, hexDigit_digitsNumber h5 h4 h3 h2 h1 h0 hi, extract_eq_hexDigit]
    · rw [eq_boolChar hg]
      rfl
    · rw [BitVec.toNat_ofNat, Nat.mod_eq_of_lt hchannel]
      exact hc
    · rw [eq_boolChar hst]
      rfl
  · intro hgrammar
    have hnone : parseLine chars = none := by
      cases h : parseLine chars with
      | none => rfl
      | some cmd =>
        rw [lineGrammar_of_parseLine h] at hgrammar
        cases hgrammar
    rw [hnone]
    rfl

/-! ### A printed line -/

/-- The six digits of a device make up the device again. -/
theorem digitsNumber_hexDigits (device : BitVec 24) :
    digitsNumber [hexDigit device.toNat 5, hexDigit device.toNat 4, hexDigit device.toNat 3, hexDigit device.toNat 2,
      hexDigit device.toNat 1, hexDigit device.toNat 0] = device.toNat := by
  have := device.isLt
  simp only [digitsNumber, hexDigit, List.foldl_cons, List.foldl_nil, Nat.reducePow]
  omega

theorem hexDigit_lt (n k : Nat) : hexDigit n k < 16 := Nat.mod_lt _ (by decide)

/-- Printing and parsing are inverse (R192). -/
theorem parseLine_lineChars (c : Command) : parseLine (lineChars c) = some c := by
  have hdigits : [hexChar (hexDigit c.fields.device.toNat 5), hexChar (hexDigit c.fields.device.toNat 4),
      hexChar (hexDigit c.fields.device.toNat 3), hexChar (hexDigit c.fields.device.toNat 2),
      hexChar (hexDigit c.fields.device.toNat 1), hexChar (hexDigit c.fields.device.toNat 0)].map hexValue =
        [hexDigit c.fields.device.toNat 5, hexDigit c.fields.device.toNat 4, hexDigit c.fields.device.toNat 3,
          hexDigit c.fields.device.toNat 2, hexDigit c.fields.device.toNat 1, hexDigit c.fields.device.toNat 0].map some := by
    simp only [List.map_cons, List.map_nil, hexValue_hexChar (hexDigit_lt _ _)]
  have hnumber := hexNumber_of_digits hdigits
  rw [digitsNumber_hexDigits] at hnumber
  have h := parseLine_of_values (versionValue_versionChar c.version) hnumber (boolValue_boolChar c.fields.group)
    (hexValue_hexChar c.fields.channel.isLt) (boolValue_boolChar c.fields.state)
  rw [ofNat_toNat_self, ofNat_toNat_self] at h
  exact h

/-- Every printed character is a digit, an upper-case letter or a colon. -/
theorem hexChar_lt {n : Nat} (h : n < 16) : (hexChar n).toNat < 0x61 := by
  have small : ∀ m < 16, (hexChar m).toNat < 0x61 := by decide
  exact small n h

theorem boolChar_lt (b : Bool) : (boolChar b).toNat < 0x61 := by cases b <;> decide

theorem versionChar_lt (v : Version) : (versionChar v).toNat < 0x61 := by cases v <;> decide

theorem lineChars_lt (c : Command) : ∀ ch ∈ lineChars c, ch.toNat < 0x61 := by
  have hcolon : colon.toNat < 0x61 := by decide
  simp only [lineChars, List.forall_mem_cons, List.not_mem_nil, false_implies, implies_true, and_true, hcolon,
    versionChar_lt, boolChar_lt, hexChar_lt (hexDigit_lt _ _), hexChar_lt c.fields.channel.isLt]

/-- Settles O50: the printed characters are `lineChars`, which parse back to the command. -/
theorem printedLineParsesBack : Obligations.PrintedLineParsesBack := by
  intro s c
  refine ⟨lineChars c, exec_line_print c s, rfl, lineChars_lt c, ?_⟩
  rw [exec_line_parse, parseLine_lineChars]
  rfl

end Sys2Proof.Machine
